-- ==== Sys2Proof/Word.lean ====
section
/-! DEFINITION. The word types of HVDEC: bytes of the buffers and of SRC, and 32-bit register, command and bus words (10_state.md section 3, 30_encoding.md R55). -/

namespace Sys2Proof

/-- A byte of SRC, LBUF or FB, or a colour channel. -/
abbrev Byte := BitVec 8

/-- A 32-bit register, bus or command word. -/
abbrev Word := BitVec 32

/-- An offset inside the host window of 0x400000 bytes (R39): 22 address bits. -/
abbrev Offset := BitVec 22

end Sys2Proof
end

