-- ==== Sys2Proof/Syntax.lean ====
section
/-! DEFINITION. The commands of HVDEC: one constructor per row of spec/opcode_table.json (30_encoding.md R57). No command carries an operand (R56). -/

namespace Sys2Proof

/-- The seven commands of R57. -/
inductive Instr where
  /-- NOP, word 0x00000000 (R82). -/
  | nop
  /-- LDPAL, word 0x00000001 (R62). -/
  | ldpal
  /-- DEMUX, word 0x00000002 (R70). -/
  | demux
  /-- DECBG, word 0x00000003 (R76). -/
  | decbg
  /-- DECSPR, word 0x00000004 (R81). -/
  | decspr
  /-- DECODE, word 0x00000005 (R83). -/
  | decode
  /-- FRAME, word 0x00000006 (R84). -/
  | frame
deriving DecidableEq, Repr

end Sys2Proof
end

