-- ==== Sys2Proof/WellFormed.lean ====
section
/-! DEFINITION. Well-formedness: which command words are legal (30_encoding.md R58). A command itself has no operand that could be ill formed (R56). -/

namespace Sys2Proof

/-- MBZ, bits 31:4 of a command word, is zero (R55). -/
abbrev mbzClear (w : Word) : Prop := w.extractLsb' 4 28 = 0

/-- OP, bits 3:0 of a command word, is one of the seven codes 0x0..0x6 (R57). -/
abbrev opDefined (w : Word) : Prop := (w.extractLsb' 0 4).toNat < 7

/-- The word is legal: neither case of R58 makes it illegal. -/
abbrev legalWord (w : Word) : Prop := mbzClear w ∧ opDefined w

/-- Every command is well formed: no command word carries an immediate, a register number or an address (R56). -/
def Instr.wf : Instr → Bool
  | .nop | .ldpal | .demux | .decbg | .decspr | .decode | .frame => true

end Sys2Proof
end

