-- ==== Sys2Proof/Decode.lean ====
section
/-! DEFINITION. The command decoder and encoder (30_encoding.md R55, R57, R58). A command is one 32-bit word; decoding is total and rejects by name. -/

namespace Sys2Proof

/-- Why a command word is illegal (R58). Both complete with ILLEGAL_CMD. -/
inductive IllegalWord where
  /-- `w[31:4] != 0`. -/
  | mbzNotZero
  /-- `w[3:0]` is in 0x7..0xF. -/
  | reservedOp
deriving DecidableEq, Repr

/-- OP: bits 3:0 of a command word (R55). -/
def opField (w : Word) : BitVec 4 := w.extractLsb' 0 4

/-- MBZ: bits 31:4 of a command word (R55). -/
def mbzField (w : Word) : BitVec 28 := w.extractLsb' 4 28

/-- The command selected by the value of OP (R57). -/
def opcode : Nat → Except IllegalWord Instr
  | 0x0 => .ok .nop
  | 0x1 => .ok .ldpal
  | 0x2 => .ok .demux
  | 0x3 => .ok .decbg
  | 0x4 => .ok .decspr
  | 0x5 => .ok .decode
  | 0x6 => .ok .frame
  | _ => .error .reservedOp

/-- The command of a word, or why the word is illegal (R57, R58). -/
def decode (w : Word) : Except IllegalWord Instr :=
  if mbzField w = 0 then opcode (opField w).toNat else .error .mbzNotZero

/-- The code of a command in OP (R57). -/
def opOf : Instr → BitVec 4
  | .nop => 0x0
  | .ldpal => 0x1
  | .demux => 0x2
  | .decbg => 0x3
  | .decspr => 0x4
  | .decode => 0x5
  | .frame => 0x6

/-- The word of a command: MBZ zero, OP its code (R55, R57). -/
def encode (i : Instr) : Word := (0 : BitVec 28) ++ opOf i

/-- The command word in four bytes as the host bus carries it, least significant byte first (R45). -/
def wordOfBytes (b0 b1 b2 b3 : Byte) : Word := b3 ++ b2 ++ b1 ++ b0

/-- Decoding of any bytes: a command is exactly one 32-bit word (R55), so the first four bytes are one and the rest
is handed back; fewer bytes are no command. -/
def decodeBytes : List Byte → Option (Except IllegalWord Instr × List Byte)
  | b0 :: b1 :: b2 :: b3 :: rest => some (decode (wordOfBytes b0 b1 b2 b3), rest)
  | _ => none

/-- The opcode table's word `w` of `nbits` bits, laid out as four bytes least significant first, through the decoder. -/
def decodeTableWord (nbits w : Nat) : Option Instr :=
  let v : Word := BitVec.ofNat 32 (w % 2 ^ nbits)
  match decodeBytes [v.extractLsb' 0 8, v.extractLsb' 8 8, v.extractLsb' 16 8, v.extractLsb' 24 8] with
  | some (.ok i, _) => some i
  | _ => none

end Sys2Proof
end

