-- ==== Sys2Proof/Config.lean ====
section
/-! DEFINITION. What is fixed for the hardware (00_scope.md R7) and the values the spec leaves OPEN or unspecified: constants with no body, so that nothing can be proved about them. -/

namespace Sys2Proof.Config

/-- MAX_DIM: the largest width or height (R7). -/
abbrev maxDim : Nat := 512

/-- PAL_RAW_BYTES: the size of a packed palette (R7). -/
abbrev palRawBytes : Nat := 32

/-- LBUF_BYTES: the size of the logical buffer (R7, R33). -/
abbrev lbufBytes : Nat := 131072

/-- FB_BYTES: the size of the frame buffer (R7, R34). -/
abbrev fbBytes : Nat := 786432

/-- The number of SRC addresses (R39). -/
abbrev srcBytes : Nat := 4294967296

/-- The largest value PCUR can hold (R24, R69). -/
abbrev cursorMax : Nat := 0xFFFFFFFF

/-- HVDEC_BASE: the host byte address of offset 0 of the window. OPEN (R7, R39; log 2). -/
opaque hvdecBase : Nat

/-- LATENCY: how many turns the host has between the acceptance numbered `n` and its completion step.
OPEN, finite, possibly different for every command (R7, R88, R110; log 1). -/
opaque latency : Nat → Nat

/-- LBUF byte `k` as reset number `epoch` left it: unspecified, fixed until written (R33, R103, U9, U13; log 4). -/
opaque lbufInit : Nat → Nat → Byte

/-- FB byte `k` as reset number `epoch` left it: unspecified, fixed until written (R34, R103, U9, U13; log 4). -/
opaque fbInit : Nat → Nat → Byte

/-- The byte the host's stream holds at an address the model's host has not stored to (R46; log 5). -/
opaque srcInit : Nat → Byte

/-- The byte a command reads at SRC address `a` when the host changed SRC under it; `n` numbers the command
(R107, U12; log 6). -/
opaque srcDraw : Nat → Nat → Byte

/-- What a host read of LBUF, FB, PCUR or PAL returns while BUSY = 1; `n` numbers the access (R37, U11; log 7). -/
opaque readDraw : Nat → Word

end Sys2Proof.Config
end

