-- ==== Sys2Proof/Machine/State.lean ====
section
/-! DEFINITION. The state of HVDEC (10_state.md R14), of the host memory and host actions a step reads, and the bookkeeping of the free values; its reset (R38); the reasons a step can stop. -/

namespace Sys2Proof.Machine

/-- A byte memory: (address, byte) pairs with strictly rising addresses. An address that is not listed holds no
byte written since reset (LBUF, FB) or placed by the host (SRC); what reading it gives is said by the accessors
of Machine/Ops.lean (log 4, log 5). -/
abbrev Memory := List Host.Cell

/-- CTRL (R18). Reserved fields hold no state (R17). -/
structure Ctrl where
  /-- Interrupt enable, bit 0. -/
  ie : Bool
  /-- Zero-remainder skip, bit 1. -/
  zskip : Bool
deriving DecidableEq, Repr

/-- STATUS (R20) without BUSY, which is 1 exactly when the latch is pending (R36; log 12). -/
structure Status where
  /-- Bit 1: a completion has happened. -/
  done : Bool
  /-- Bit 2: a demultiplex zero-filled at least one byte; sticky. -/
  short : Bool
  /-- Bit 3: a host write was dropped; sticky. -/
  ovr : Bool
  /-- Bits 11:8: error code of the last completed command. -/
  err : BitVec 4
deriving DecidableEq, Repr

/-- One RGB8 colour (R32). -/
structure Rgb where
  r : Byte
  g : Byte
  b : Byte
deriving DecidableEq, Repr

/-- The command latch (R36). -/
inductive Latch where
  | idle
  | pending (w : Word)
deriving DecidableEq, Repr

/-- The host-visible registers of 10_state.md section 3. -/
inductive Reg where
  | ctrl | cmd | status | width | height | format | pcur | srcLen | dmxLen | chunk | gap | sector
deriving DecidableEq, Repr

/-- What the host, or the platform's reset input, does in one turn. -/
inductive HostAction where
  /-- A bus read of `bytes` bytes at an offset of the window (R40 to R43). -/
  | read (bytes : Nat) (off : Offset)
  /-- A bus write; an access of fewer than four bytes carries them in the low bytes of `data` (R40 to R45). -/
  | write (bytes : Nat) (off : Offset) (data : Word)
  /-- `wait` (R59): read STATUS, again until BUSY reads 0; one read a turn. -/
  | wait
  /-- The host stores a byte into its own SRC (R46, R107). -/
  | srcStore (a : Word) (b : Byte)
  /-- The reset input is asserted (R102, R103). -/
  | reset
deriving DecidableEq, Repr

/-- What the host bus answered to the host's last access. -/
inductive BusResponse where
  | none
  | written
  | data (v : Word)
deriving DecidableEq, Repr

/-- The error codes of R90, without OK. -/
inductive CmdError where
  | illegalCmd
  | badFormat
  | badDim
  | badAlign
  | badConfig
  | lenRange
  | cursorRange
  | palShort
deriving DecidableEq, Repr

/-- Why a step stops with a fault. -/
inductive Fault where
  /-- A host access got a bus error (R43): raised by the host's turn, for the access named. The spec's treatment
  for a model is that no defined successor state is reached through it (93_implementation_defined.md U8; log 3).
  Safe: the model stops where the hardware, unchanged, goes on. -/
  | busError (a : HostAction)
deriving DecidableEq, Repr

/-- Why an instruction has no meaning. -/
inductive Refusal where
  /-- The command is not modelled: raised only by an arm of exec. Safe. No arm raises it: all seven are modelled. -/
  | notModelled (mnemonic : String)
deriving DecidableEq, Repr

structure State where
  /-- CTRL (R18). -/
  ctrl : Ctrl
  /-- STATUS (R20). -/
  status : Status
  /-- WIDTH[15:0] (R21). -/
  width : BitVec 16
  /-- HEIGHT[15:0] (R22). -/
  height : BitVec 16
  /-- FORMAT[7:0] (R23). -/
  format : BitVec 8
  /-- PCUR, the physical cursor (R24). -/
  pcur : Word
  /-- SRC_LEN (R25). -/
  srcLen : Word
  /-- DMX_LEN (R26). -/
  dmxLen : Word
  /-- CHUNK[15:0] (R27). -/
  chunk : BitVec 16
  /-- GAP[15:0] (R28). -/
  gap : BitVec 16
  /-- SECTOR[15:0] (R29). -/
  sector : BitVec 16
  /-- PAL[0..15] (R32). -/
  pal : Vector Rgb 16
  /-- LBUF (R33): the bytes written since reset. -/
  lbuf : Memory
  /-- FB (R34): the bytes written since reset. -/
  fb : Memory
  /-- The command latch (R36). -/
  latch : Latch
  /-- SRC, the host's memory (R46): the bytes the host has placed. Not HVDEC's (R14; log 5). -/
  src : Memory
  /-- What the host does next, oldest first (R50; log 8). -/
  hostQueue : List HostAction
  /-- The answer to the host's last access (log 9). -/
  response : BusResponse
  /-- Model's own: host turns left before the completion step (LATENCY, R88; log 1). -/
  delay : Nat
  /-- Model's own: SRC changed below SRC_LEN since acceptance (R107; log 6). -/
  srcTouched : Bool
  /-- Model's own: the number of free draws made (log 7). -/
  draws : Nat
  /-- Model's own: the number of resets since power-on (log 7). -/
  epoch : Nat
deriving DecidableEq, Repr

/-- The state after reset (R38, R102): every register at the value the spec gives, LBUF and FB unspecified (nothing
listed), the latch idle. The fields that are not HVDEC's start empty or zero (logs 5, 7, 8, 9). -/
def State.reset : State where
  ctrl := { ie := false, zskip := false }
  status := { done := false, short := false, ovr := false, err := 0 }
  width := 0
  height := 0
  format := 0
  pcur := 0
  srcLen := 0
  dmxLen := 0
  chunk := 0x0800
  gap := 0x0130
  sector := 0x0930
  pal := Vector.replicate 16 { r := 0, g := 0, b := 0 }
  lbuf := []
  fb := []
  latch := .idle
  src := []
  hostQueue := []
  response := .none
  delay := 0
  srcTouched := false
  draws := 0
  epoch := 0

end Sys2Proof.Machine
end

