-- ==== Sys2Proof/Machine/Flags.lean ====
section
/-! DEFINITION. The status flags and error codes: how STATUS and CTRL are laid out and written, what each command event does to them (10_state.md R18, R20; 60_exceptions.md R87 to R93). -/

namespace Sys2Proof.Machine

/-- The value ERR takes for an error (R90). -/
def CmdError.code : CmdError → BitVec 4
  | .illegalCmd => 1
  | .badFormat => 2
  | .badDim => 3
  | .badAlign => 4
  | .badConfig => 5
  | .lenRange => 6
  | .cursorRange => 7
  | .palShort => 8

/-- The first error whose condition holds, in the order of R92. -/
def firstError : List (Bool × CmdError) → Option CmdError
  | [] => none
  | (holds, e) :: rest => if holds then some e else firstError rest

/-- CTRL as the host reads it: IE bit 0, ZSKIP bit 1, the rest 0 (R17, R18). -/
def Ctrl.word (c : Ctrl) : Word := (0 : BitVec 30) ++ BitVec.ofBool c.zskip ++ BitVec.ofBool c.ie

/-- CTRL as a host write of `v` leaves it (R17, R18). -/
def Ctrl.ofWord (v : Word) : Ctrl := { ie := v.getLsbD 0, zskip := v.getLsbD 1 }

/-- STATUS as the host reads it (R20): BUSY 0, DONE 1, SHORT 2, OVR 3, ERR 11:8, the rest 0 (R17). -/
def Status.word (busy : Bool) (st : Status) : Word :=
  (0 : BitVec 20) ++ st.err ++ (0 : BitVec 4) ++ BitVec.ofBool st.ovr ++ BitVec.ofBool st.short
    ++ BitVec.ofBool st.done ++ BitVec.ofBool busy

/-- STATUS after a host write of `v`: a 1 clears DONE, SHORT or OVR; BUSY and ERR ignore the write (R20). -/
def Status.writeOneToClear (st : Status) (v : Word) : Status :=
  { st with
    done := st.done && !v.getLsbD 1
    short := st.short && !v.getLsbD 2
    ovr := st.ovr && !v.getLsbD 3 }

/-- STATUS after the acceptance of a command (R87). -/
def Status.accepted (st : Status) : Status := { st with done := false, err := 0 }

/-- STATUS after the completion of a command with this ERR code (R88). -/
def Status.completed (st : Status) (code : BitVec 4) : Status := { st with done := true, err := code }

/-- STATUS after a demultiplex: SHORT is set when a byte was zero-filled, and keeps its value otherwise (R68). -/
def Status.afterDemux (st : Status) (zeroFilled : Bool) : Status := { st with short := st.short || zeroFilled }

/-- STATUS after a dropped host write (R31). -/
def Status.overrun (st : Status) : Status := { st with ovr := true }

/-- STATUS.BUSY: 1 exactly when the latch is pending (R36). -/
def State.busy (s : State) : Bool :=
  match s.latch with
  | .idle => false
  | .pending _ => true

/-- The level of the interrupt output: CTRL.IE and STATUS.DONE (R93). -/
def State.irq (s : State) : Bool := s.ctrl.ie && s.status.done

end Sys2Proof.Machine
end

