-- ==== Sys2Proof/Machine/Ops.lean ====
section
/-! DEFINITION. The named operations over the memories and the command lifecycle: reading and writing SRC, LBUF, FB and PAL, acceptance, completion with or without an error, a dropped write, the reset input (20_memory.md, 60_exceptions.md, 70_reset_and_hazards.md). -/

namespace Sys2Proof.Machine

/-! ### Byte memories -/

/-- The canonical form: addresses strictly rising. -/
abbrev Memory.wf (m : Memory) : Prop := List.Pairwise (fun c d => c.1 < d.1) m

/-- Every listed address is below `n`. -/
abbrev Memory.below (n : Nat) (m : Memory) : Prop := ∀ c ∈ m, c.1 < n

/-- The byte listed at an address. -/
def Memory.byteAt : Memory → Nat → Option Byte
  | [], _ => none
  | (k, v) :: rest, a => if k = a then some v else Memory.byteAt rest a

/-- Bytes `base .. base + n - 1` replaced by `f 0 .. f (n - 1)`; every other byte as before. -/
def Memory.writeRange (m : Memory) (base n : Nat) (f : Nat → Byte) : Memory :=
  m.filter (fun c => c.1 < base) ++ (List.range n).map (fun i => (base + i, f i))
    ++ m.filter (fun c => base + n ≤ c.1)

/-- LBUF[k]: the byte written last, or the unspecified byte that reset left (R33, R38, U9; log 4). -/
def State.lbufByte (s : State) (k : Nat) : Byte := (Memory.byteAt s.lbuf k).getD (Config.lbufInit s.epoch k)

/-- FB[k]: the byte written last, or the unspecified byte that reset left (R34, R38, U9; log 4). -/
def State.fbByte (s : State) (k : Nat) : Byte := (Memory.byteAt s.fb k).getD (Config.fbInit s.epoch k)

/-- SRC[a]: the byte the host's memory holds (R46; log 5). -/
def State.srcByte (s : State) (a : Nat) : Byte := (Memory.byteAt s.src a).getD (Config.srcInit a)

/-- `MemRead(SRC, a, 1)` of R47: `none` is ABSENT. Where the host changed SRC under the command, each byte read is a
free draw (R107, U12; log 6). -/
def State.memRead (s : State) (a : Nat) : Option Byte :=
  if a < s.srcLen.toNat then some (if s.srcTouched then Config.srcDraw s.draws a else s.srcByte a) else none

/-- The channel of a colour stored at byte 0, 1 or 2 of its pixel: R, G, B (R34, R35). -/
def Rgb.channel (e : Rgb) : Nat → Byte
  | 0 => e.r
  | 1 => e.g
  | _ => e.b

/-- PAL[idx] for a 4-bit index (R32, R72). -/
def palEntry (pal : Vector Rgb 16) (idx : BitVec 4) : Rgb := pal.get idx.toFin

/-- Storing entry `e` at pixel (x, y) of a `w`-wide frame (R35). -/
def storePixel (w x y : Nat) (e : Rgb) (fb : Memory) : Memory :=
  Memory.writeRange fb (3 * (y * w + x)) 3 e.channel

/-- The host stores byte `b` at SRC address `a`. A store below SRC_LEN while a command is pending is a change of SRC
under that command (R107; log 6). -/
def State.srcStore (s : State) (a : Word) (b : Byte) : State :=
  { s with
    src := Memory.writeRange s.src a.toNat 1 (fun _ => b)
    srcTouched := s.srcTouched || (s.busy && decide (a.toNat < s.srcLen.toNat)) }

/-! ### Command lifecycle -/

/-- Acceptance of the word `w` (R87): the latch pends, BUSY = 1, DONE and ERR are cleared; the time to completion is
drawn (LATENCY; log 1). -/
def State.accept (s : State) (w : Word) : State :=
  { s with
    latch := .pending w
    status := s.status.accepted
    srcTouched := false
    delay := Config.latency s.draws
    draws := s.draws + 1 }

/-- The end of every command (R88): ERR is the code, DONE = 1, BUSY = 0 and the latch is idle. With a non-zero code
this is all a command does that ends in an error (R89): HVDEC's only form of taking an exception (R94). -/
def State.finish (s : State) (code : BitVec 4) : State :=
  { s with
    latch := .idle
    status := s.status.completed code
    srcTouched := false }

/-- The completion step of R88: with an error, only the end of the command; without, its effects `effect` and the
end of the command with ERR = 0. -/
def complete (s : State) (error : Option CmdError) (effect : State) : Host.Outcome State Fault Refusal :=
  match error with
  | some e => .next (s.finish e.code)
  | none => .next (effect.finish 0)

/-- The completion of an illegal word (R58): ILLEGAL_CMD and nothing else. -/
def execIllegal (s : State) : Host.Outcome State Fault Refusal :=
  complete s (some .illegalCmd) s

/-- A host write dropped because BUSY = 1 (R31): only OVR changes. -/
def State.dropWrite (s : State) : State := { s with status := s.status.overrun }

/-- The reset input (R102, R103): every register and PAL at its reset value, LBUF and FB unspecified anew, a pending
command abandoned. SRC and the host are not HVDEC's and stay; free draws go on (logs 4, 7, 13). -/
def State.resetInput (s : State) : State :=
  { State.reset with
    src := s.src
    hostQueue := s.hostQueue
    response := s.response
    draws := s.draws
    epoch := s.epoch + 1 }

end Sys2Proof.Machine
end

