-- ==== Sys2Proof/Machine/Bus.lean ====
section
/-! DEFINITION. The host's side: the window map, bus reads and writes, bus errors, and one turn of the host (10_state.md section 3, 20_memory.md R39 to R45). -/

namespace Sys2Proof.Machine

/-- What a legal host access reaches (R40). -/
inductive Place where
  | reg (r : Reg)
  | pal (n : Fin 16)
  | lbuf (k : Nat)
  | fb (k : Nat)
deriving DecidableEq, Repr

/-- The register at an offset of the register range (10_state.md section 3). -/
def regAt : Nat → Option Reg
  | 0x00 => some .ctrl
  | 0x04 => some .cmd
  | 0x08 => some .status
  | 0x0C => some .width
  | 0x10 => some .height
  | 0x14 => some .format
  | 0x18 => some .pcur
  | 0x1C => some .srcLen
  | 0x20 => some .dmxLen
  | 0x24 => some .chunk
  | 0x28 => some .gap
  | 0x2C => some .sector
  | _ => none

/-- An access of the register or PAL range: 32 bits at a multiple of 4 (R41). -/
def wordAligned (bytes off : Nat) : Bool := decide (bytes = 4 ∧ off % 4 = 0)

/-- An access of a buffer window: 8, 16 or 32 bits at a multiple of its width (R42). -/
def laneAligned (bytes off : Nat) : Bool := decide ((bytes = 1 ∨ bytes = 2 ∨ bytes = 4) ∧ off % bytes = 0)

/-- What an access of `bytes` bytes at `off` reaches; `none` is a bus error (R40 to R43). -/
def locate (bytes off : Nat) : Option Place :=
  if off < 0x30 then (if wordAligned bytes off then (regAt off).map .reg else none)
  else if off < 0x40 then none
  else if off < 0x80 then (if wordAligned bytes off then some (.pal (Fin.ofNat 16 ((off - 0x40) / 4))) else none)
  else if off < 0x100000 then none
  else if off < 0x120000 then (if laneAligned bytes off then some (.lbuf (off - 0x100000)) else none)
  else if off < 0x200000 then none
  else if off < 0x2C0000 then (if laneAligned bytes off then some (.fb (off - 0x200000)) else none)
  else none

/-- Bytes `k .. k + n - 1` as one value, the byte at the lowest address least significant (R45). -/
def readBytes (f : Nat → Byte) (k : Nat) : Nat → Word
  | 0 => 0
  | n + 1 => (f k).setWidth 32 ||| (readBytes f (k + 1) n <<< 8)

/-- Byte `i` of a written value (R45). -/
def dataByte (v : Word) (i : Nat) : Byte := v.extractLsb' (8 * i) 8

/-- PALn as the host reads it: R, G, B from the low byte up, bits 31:24 zero (R30). -/
def Rgb.word (e : Rgb) : Word := (0 : BitVec 8) ++ e.b ++ e.g ++ e.r

/-- The unspecified value of a host read while BUSY = 1, as wide as the access (R37; log 7). -/
def State.busyRead (s : State) (bytes : Nat) : Word :=
  ((Config.readDraw s.draws).setWidth (8 * bytes)).setWidth 32

/-- The value of a register for the host; PCUR is unspecified while BUSY = 1 (R17 to R29, R37). -/
def readReg (s : State) : Reg → Word
  | .ctrl => s.ctrl.word
  | .cmd => 0
  | .status => s.status.word s.busy
  | .width => s.width.setWidth 32
  | .height => s.height.setWidth 32
  | .format => s.format.setWidth 32
  | .pcur => if s.busy then s.busyRead 4 else s.pcur
  | .srcLen => s.srcLen
  | .dmxLen => s.dmxLen
  | .chunk => s.chunk.setWidth 32
  | .gap => s.gap.setWidth 32
  | .sector => s.sector.setWidth 32

/-- The value of a legal host read (R30, R37, R45). -/
def readPlace (s : State) (bytes : Nat) : Place → Word
  | .reg r => readReg s r
  | .pal n => if s.busy then s.busyRead 4 else (s.pal.get n).word
  | .lbuf k => if s.busy then s.busyRead bytes else readBytes s.lbufByte k bytes
  | .fb k => if s.busy then s.busyRead bytes else readBytes s.fbByte k bytes

/-- A host read: its data, or `none` for a bus error, which returns none (R43). No read changes HVDEC (R44). -/
def busRead (s : State) (bytes off : Nat) : Option Word := (locate bytes off).map (readPlace s bytes)

/-- A write of `v` to a register (R17 to R29). While BUSY = 1 every register but STATUS drops it (R31); a CMD write
while idle submits `v` (R19, R87). -/
def writeReg (s : State) (r : Reg) (v : Word) : State :=
  if s.busy && r != .status then s.dropWrite
  else
    match r with
    | .ctrl => { s with ctrl := Ctrl.ofWord v }
    | .cmd => s.accept v
    | .status => { s with status := s.status.writeOneToClear v }
    | .width => { s with width := v.setWidth 16 }
    | .height => { s with height := v.setWidth 16 }
    | .format => { s with format := v.setWidth 8 }
    | .pcur => { s with pcur := v }
    | .srcLen => { s with srcLen := v }
    | .dmxLen => { s with dmxLen := v }
    | .chunk => { s with chunk := v.setWidth 16 }
    | .gap => { s with gap := v.setWidth 16 }
    | .sector => { s with sector := v.setWidth 16 }

/-- A write of `bytes` bytes at LBUF[k]; dropped while BUSY = 1 (R31, R33, R45). -/
def writeLbuf (s : State) (k bytes : Nat) (v : Word) : State :=
  if s.busy then s.dropWrite else { s with lbuf := Memory.writeRange s.lbuf k bytes (dataByte v) }

/-- A host write: the state after it, or `none` for a bus error, which changes nothing (R43) and comes before the
BUSY drop (R92). PAL and FB are read-only (R41, R42). -/
def busWrite (s : State) (bytes off : Nat) (v : Word) : Option State :=
  match locate bytes off with
  | some (.reg r) => some (writeReg s r v)
  | some (.lbuf k) => some (writeLbuf s k bytes v)
  | some (.pal _) => none
  | some (.fb _) => none
  | none => none

/-- The bookkeeping of a host read: the bus answers `v`; a read while BUSY = 1 uses up a free draw (R37; log 7). -/
def State.answerRead (s : State) (v : Word) : State :=
  { s with
    response := .data v
    draws := if s.busy then s.draws + 1 else s.draws }

/-- One action of the host, taken off its queue (R44, R59, R102, R107). -/
def hostDo (a : HostAction) (s : State) : Host.Outcome State Fault Refusal :=
  match a with
  | .read bytes off =>
    match busRead s bytes off.toNat with
    | some v => .next (s.answerRead v)
    | none => .fault (.busError a)
  | .write bytes off v =>
    match busWrite s bytes off.toNat v with
    | some t => .next { t with response := .written }
    | none => .fault (.busError a)
  | .wait =>
    .next { s with
      response := .data (readReg s .status)
      hostQueue := if (readReg s .status).getLsbD 0 then .wait :: s.hostQueue else s.hostQueue }
  | .srcStore a b => .next (s.srcStore a b)
  | .reset => .next s.resetInput

/-- The host's turn: its oldest action, or nothing (R50, R101). -/
def hostTurn (s : State) : Host.Outcome State Fault Refusal :=
  match s.hostQueue with
  | [] => .next s
  | a :: rest => hostDo a { s with hostQueue := rest }

end Sys2Proof.Machine
end

