-- ==== Sys2Proof/Machine/Operands.lean ====
section
/-! DEFINITION. The operands of the commands and the checks made on them: every operand is read from a fixed register (30_encoding.md R56; 42_demux.md R65 to R69; 60_exceptions.md R90 to R92). -/

namespace Sys2Proof.Machine

/-! ### Register operands, as unsigned numbers (R11) -/

/-- W = WIDTH[15:0]. -/
def State.frameW (s : State) : Nat := s.width.toNat

/-- H = HEIGHT[15:0]. -/
def State.frameH (s : State) : Nat := s.height.toNat

/-- F = FORMAT[7:0]. -/
def State.formatF (s : State) : Nat := s.format.toNat

/-- C = CHUNK[15:0]. -/
def State.chunkC (s : State) : Nat := s.chunk.toNat

/-- G = GAP[15:0]. -/
def State.gapG (s : State) : Nat := s.gap.toNat

/-- S = SECTOR[15:0]. -/
def State.sectorS (s : State) : Nat := s.sector.toNat

/-- p0 = PCUR. -/
def State.cursor (s : State) : Nat := s.pcur.toNat

/-- L = SRC_LEN. -/
def State.srcL (s : State) : Nat := s.srcLen.toNat

/-- N of a DEMUX: DMX_LEN. -/
def State.demuxN (s : State) : Nat := s.dmxLen.toNat

/-- N of a FRAME: W*H div 2 (R84). -/
def State.frameN (s : State) : Nat := s.frameW * s.frameH / 2

/-! ### The demultiplexer's closed forms -/

/-- a(k), the physical address of logical byte k (R65). -/
def State.demuxAddr (s : State) (k : Nat) : Nat :=
  s.cursor + (k / s.chunkC) * (s.chunkC + s.gapG) + k % s.chunkC

/-- adv(N), how far PCUR moves (R67). -/
def State.demuxAdvance (s : State) (n : Nat) : Nat :=
  (n / s.chunkC) * (s.chunkC + s.gapG) + (if 0 < n % s.chunkC ∨ s.ctrl.zskip = true then s.sectorS else 0)

/-! ### Checks (R69, R91) -/

/-- BAD_FORMAT: FORMAT > 1. -/
def badFormat (s : State) : Bool := decide (1 < s.formatF)

/-- BAD_DIM: width or height outside 1..512, checked independently. -/
def badDim (s : State) : Bool :=
  decide (s.frameW < 1 ∨ Config.maxDim < s.frameW ∨ s.frameH < 1 ∨ Config.maxDim < s.frameH)

/-- BAD_ALIGN of format BG. -/
def badAlignBg (s : State) : Bool := decide (s.frameW % 8 ≠ 0 ∨ s.frameH % 8 ≠ 0)

/-- BAD_ALIGN of format SPR. -/
def badAlignSpr (s : State) : Bool := decide (s.frameW % 32 ≠ 0 ∨ s.frameH % 16 ≠ 0)

/-- BAD_CONFIG: C = 0 or S < C. -/
def badConfig (s : State) : Bool := decide (s.chunkC = 0 ∨ s.sectorS < s.chunkC)

/-- LEN_RANGE: N larger than LBUF. -/
def lenRange (n : Nat) : Bool := decide (Config.lbufBytes < n)

/-- CURSOR_RANGE: the new PCUR would exceed 0xFFFFFFFF. -/
def cursorRange (s : State) (n : Nat) : Bool := decide (Config.cursorMax < s.cursor + s.demuxAdvance n)

/-- PAL_SHORT: one of the 32 palette bytes lies at or beyond SRC_LEN (R62). -/
def palShort (s : State) : Bool := decide (s.srcL < s.cursor + Config.palRawBytes)

/-- The geometry checks of the BG decoder, in order (R76, R92). -/
def bgChecks (s : State) : List (Bool × CmdError) := [(badDim s, .badDim), (badAlignBg s, .badAlign)]

/-- The geometry checks of the SPR decoder, in order (R81, R92). -/
def sprChecks (s : State) : List (Bool × CmdError) := [(badDim s, .badDim), (badAlignSpr s, .badAlign)]

/-- The geometry checks by FORMAT (R83, R84). -/
def formatChecks (s : State) : List (Bool × CmdError) := if s.formatF = 0 then bgChecks s else sprChecks s

end Sys2Proof.Machine
end

