-- ==== Sys2Proof/Machine/Demux.lean ====
section
/-! DEFINITION. DEMUX: the sector demultiplexer (42_demux.md), by its closed forms as R70 writes it, and the engine's loop of R64 beside it. -/

namespace Sys2Proof.Machine

/-- `fetch(a)` of R64 as a byte: a byte at or beyond SRC_LEN reads as 0 (R66). -/
def State.fetch (s : State) (a : Nat) : Byte := (s.memRead a).getD 0

/-- Whether the fetch at `a` is a short read. -/
def State.isShort (s : State) (a : Nat) : Bool := (s.memRead a).isNone

/-- Whether a demultiplex of `n` bytes zero-fills one: N > 0 and a(N-1) ≥ L (R68). -/
def zeroFilled (s : State) (n : Nat) : Bool := decide (0 < n ∧ s.srcL ≤ s.demuxAddr (n - 1))

/-- The effect of demultiplexing `n` bytes (R66, R67, R68). -/
def demuxInto (s : State) (n : Nat) : State :=
  { s with
    lbuf := Memory.writeRange s.lbuf 0 n (fun k => s.fetch (s.demuxAddr k))
    pcur := BitVec.ofNat 32 (s.cursor + s.demuxAdvance n)
    status := s.status.afterDemux (zeroFilled s n) }

/-- DEMUX (R69, R70). -/
def execDemux (s : State) : Host.Outcome State Fault Refusal :=
  complete s
    (firstError [(badConfig s, .badConfig), (lenRange s.demuxN, .lenRange), (cursorRange s s.demuxN, .cursorRange)])
    (demuxInto s s.demuxN)

/-! ### The procedure of R64

The loop the closed forms are derived from. A statement in Certificates says that the two agree. -/

/-- The variables of R64's loop, with LBUF. -/
structure DemuxLoop where
  p : Nat
  rem : Nat
  k : Nat
  short : Bool
  lbuf : Memory
deriving DecidableEq, Repr

/-- `for t in [0, n): LBUF[k+t] <- fetch(p+t)`, recording a short read. -/
def copyRun (s : State) (d : DemuxLoop) (n : Nat) : DemuxLoop :=
  { d with
    lbuf := Memory.writeRange d.lbuf d.k n (fun t => s.fetch (d.p + t))
    short := d.short || (List.range n).any (fun t => s.isShort (d.p + t)) }

/-- `while rem >= C`, for at most `fuel` rounds. -/
def demuxChunks (s : State) : Nat → DemuxLoop → DemuxLoop
  | 0, d => d
  | fuel + 1, d =>
    if s.chunkC ≤ d.rem then
      let d' := copyRun s d s.chunkC
      demuxChunks s fuel
        { d' with p := d.p + s.chunkC + s.gapG, k := d.k + s.chunkC, rem := d.rem - s.chunkC }
    else d

/-- The whole procedure of R64 for `n` bytes; with C ≥ 1, `n` rounds are enough. -/
def demuxProcedure (s : State) (n : Nat) : DemuxLoop :=
  let d := demuxChunks s n { p := s.cursor, rem := n, k := 0, short := false, lbuf := s.lbuf }
  if 0 < d.rem ∨ s.ctrl.zskip = true then
    { copyRun s d d.rem with p := d.p + d.rem + (s.sectorS - d.rem) }
  else d

end Sys2Proof.Machine
end

