-- ==== Sys2Proof/Machine/Palette.lean ====
section
/-! DEFINITION. LDPAL: the palette load (41_palette.md). -/

namespace Sys2Proof.Machine

/-- A 3-bit channel widened to 8 bits with truncating division (R60). -/
def scale3 (v : BitVec 3) : Byte := BitVec.ofNat 8 (255 * v.toNat / 7)

/-- The colour held in two raw bytes: r3 = lo[5:3], g3 = hi[0]:lo[7:6], b3 = lo[2:0] (R61). -/
def paletteColour (lo hi : Byte) : Rgb where
  r := scale3 (lo.extractLsb' 3 3)
  g := scale3 (hi.extractLsb' 0 1 ++ lo.extractLsb' 6 2)
  b := scale3 (lo.extractLsb' 0 3)

/-- The raw palette byte at SRC address `a`; the check of R62 leaves none absent. -/
def State.rawByte (s : State) (a : Nat) : Byte := (s.memRead a).getD 0

/-- newpal[i] of R62. -/
def newPalEntry (s : State) (i : Nat) : Rgb :=
  paletteColour (s.rawByte (s.cursor + 2 * i)) (s.rawByte (s.cursor + 2 * i + 1))

/-- newpal[0..15] of R62. -/
def newPal (s : State) : Vector Rgb 16 := ⟨((List.range 16).map (newPalEntry s)).toArray, by simp⟩

/-- The effect of a successful LDPAL: all 16 entries at once, PCUR advanced by 32 (R62, R63). -/
def palInto (s : State) : State :=
  { s with
    pal := newPal s
    pcur := BitVec.ofNat 32 (s.cursor + Config.palRawBytes) }

/-- LDPAL (R62). -/
def execLdpal (s : State) : Host.Outcome State Fault Refusal :=
  complete s (firstError [(palShort s, .palShort)]) (palInto s)

end Sys2Proof.Machine
end

