-- ==== Sys2Proof/Machine/Tile.lean ====
section
/-! DEFINITION. DECBG: the tile decoder (43_tile.md), with the index formation and the frame layout shared with the sprite decoder. -/

namespace Sys2Proof.Machine

/-- The colour index of four bitplane bits: bitplane p carries index bit p (R72). -/
def planeIndex (b0 b1 b2 b3 : Bool) : BitVec 4 :=
  BitVec.ofBool b3 ++ BitVec.ofBool b2 ++ BitVec.ofBool b1 ++ BitVec.ofBool b0

/-- Byte `p` of a `w`-wide frame whose pixel (x, y) has index `idxAt x y` (R34, R35). -/
def frameByte (pal : Vector Rgb 16) (w : Nat) (idxAt : Nat → Nat → BitVec 4) (p : Nat) : Byte :=
  (palEntry pal (idxAt (p / 3 % w) (p / 3 / w))).channel (p % 3)

/-- idx(t, r, x): the index of the pixel in row r and column x of tile t, plane bytes by R73 (R74). -/
def tileIndex (lb : Nat → Byte) (t r x : Nat) : BitVec 4 :=
  planeIndex ((lb (32 * t + 2 * r)).getLsbD (7 - x)) ((lb (32 * t + 2 * r + 1)).getLsbD (7 - x))
    ((lb (32 * t + 16 + 2 * r)).getLsbD (7 - x)) ((lb (32 * t + 16 + 2 * r + 1)).getLsbD (7 - x))

/-- The index of frame pixel (x, y): tile (x div 8, y div 8), stored as number `ty*TW + tx` (R73, R74). -/
def State.bgIndexAt (s : State) (x y : Nat) : BitVec 4 :=
  tileIndex s.lbufByte (y / 8 * (s.frameW / 8) + x / 8) (y % 8) (x % 8)

/-- The effect of the BG decoder: FB[0..3*W*H-1] (R76). Each pixel is written once, so the frame is written byte by
byte in address order (log 14). -/
def bgInto (s : State) : State :=
  { s with fb := Memory.writeRange s.fb 0 (3 * (s.frameW * s.frameH)) (frameByte s.pal s.frameW s.bgIndexAt) }

/-- DECBG (R76). -/
def execDecbg (s : State) : Host.Outcome State Fault Refusal :=
  complete s (firstError (bgChecks s)) (bgInto s)

/-! ### The forms the manual writes as loops

Statements in Certificates say that they agree with the above. -/

/-- `for i in [0, n): m <- body i m`. -/
def forRange (n : Nat) (body : Nat → Memory → Memory) (m : Memory) : Memory :=
  (List.range n).foldl (fun acc i => body i acc) m

/-- The four loops of R76. -/
def bgStoreLoop (s : State) : Memory :=
  forRange (s.frameH / 8) (fun ty => forRange (s.frameW / 8) (fun tx => forRange 8 (fun r => forRange 8 (fun x =>
    storePixel s.frameW (8 * tx + x) (8 * ty + r)
      (palEntry s.pal (tileIndex s.lbufByte (ty * (s.frameW / 8) + tx) r x)))))) s.fb

/-- The shifting form of one row (R75): the indices written for columns `n - 1` down to 0, in that order, from four
accumulators. -/
def shiftRow {w : Nat} : Nat → BitVec w → BitVec w → BitVec w → BitVec w → List (BitVec 4)
  | 0, _, _, _, _ => []
  | n + 1, a0, a1, a2, a3 =>
    planeIndex (a0.getLsbD 0) (a1.getLsbD 0) (a2.getLsbD 0) (a3.getLsbD 0)
      :: shiftRow n (a0 >>> 1) (a1 >>> 1) (a2 >>> 1) (a3 >>> 1)

end Sys2Proof.Machine
end

