-- ==== Sys2Proof/Machine/Sprite.lean ====
section
/-! DEFINITION. DECSPR: the sprite decoder (44_sprite.md). -/

namespace Sys2Proof.Machine

/-- word(c, n): 16-bit word n of storage cell c, little-endian (R77, R78). -/
def cellWord (lb : Nat → Byte) (c n : Nat) : BitVec 16 := lb (128 * c + 2 * n + 1) ++ lb (128 * c + 2 * n)

/-- idx(c, r, x): the index of the pixel in row r and column x of cell c; plane p's word is 16p + r (R77, R80). -/
def cellIndex (lb : Nat → Byte) (c r x : Nat) : BitVec 4 :=
  planeIndex ((cellWord lb c r).getLsbD (15 - x)) ((cellWord lb c (16 + r)).getLsbD (15 - x))
    ((cellWord lb c (32 + r)).getLsbD (15 - x)) ((cellWord lb c (48 + r)).getLsbD (15 - x))

/-- u, the left column of cell (i, j) (R79). -/
def cellU (i j : Nat) : Nat := (i &&& 1) * 16 + j * 32

/-- v, the top row of cell (i, j) (R79). -/
def cellV (i : Nat) : Nat := (i >>> 1) * 16

/-- The index of frame pixel (x, y): it lies in the cell with j = x div 32 and i = 2*(y div 16) + (x mod 32) div 16,
stored as number c = j*NI + i (R79, R80). -/
def State.sprIndexAt (s : State) (x y : Nat) : BitVec 4 :=
  cellIndex s.lbufByte (x / 32 * (s.frameH / 8) + (2 * (y / 16) + x % 32 / 16)) (y % 16) (x % 16)

/-- The effect of the SPR decoder: FB[0..3*W*H-1] (R81). Each pixel is written once, so the frame is written byte by
byte in address order (log 14). -/
def sprInto (s : State) : State :=
  { s with fb := Memory.writeRange s.fb 0 (3 * (s.frameW * s.frameH)) (frameByte s.pal s.frameW s.sprIndexAt) }

/-- DECSPR (R81). -/
def execDecspr (s : State) : Host.Outcome State Fault Refusal :=
  complete s (firstError (sprChecks s)) (sprInto s)

/-- The four loops of R81. A statement in Certificates says that they agree with the above. -/
def sprStoreLoop (s : State) : Memory :=
  forRange (s.frameW / 32) (fun j => forRange (s.frameH / 8) (fun i => forRange 16 (fun r => forRange 16 (fun x =>
    storePixel s.frameW (cellU i j + x) (cellV i + r)
      (palEntry s.pal (cellIndex s.lbufByte (j * (s.frameH / 8) + i) r x)))))) s.fb

end Sys2Proof.Machine
end

