-- ==== Sys2Proof/Machine/Sequence.lean ====
section
/-! DEFINITION. NOP, DECODE and FRAME: the sequencing commands (45_sequence.md). -/

namespace Sys2Proof.Machine

/-- NOP (R82): only the completion itself. -/
def execNop (s : State) : Host.Outcome State Fault Refusal :=
  complete s none s

/-- The decode by FORMAT: 0 is BG, 1 is SPR (R83). -/
def formatInto (s : State) : State := if s.formatF = 0 then bgInto s else sprInto s

/-- DECODE (R83). -/
def execDecode (s : State) : Host.Outcome State Fault Refusal :=
  complete s (firstError ((badFormat s, .badFormat) :: formatChecks s)) (formatInto s)

/-- FRAME (R84): demultiplex W*H div 2 bytes, then decode the new LBUF. -/
def execFrame (s : State) : Host.Outcome State Fault Refusal :=
  complete s
    (firstError ((badFormat s, .badFormat) :: formatChecks s
      ++ [(badConfig s, .badConfig), (cursorRange s s.frameN, .cursorRange)]))
    (formatInto (demuxInto s s.frameN))

end Sys2Proof.Machine
end

