-- ==== Sys2Proof/Machine/Dispatch.lean ====
section
/-! DEFINITION. exec: the completion step of each command (60_exceptions.md R88), one arm per constructor of Instr. -/

namespace Sys2Proof.Machine

def exec (i : Instr) (s : State) : Host.Outcome State Fault Refusal :=
  match i with
  | .nop => Sys2Proof.Machine.execNop s
  | .ldpal => Sys2Proof.Machine.execLdpal s
  | .demux => Sys2Proof.Machine.execDemux s
  | .decbg => Sys2Proof.Machine.execDecbg s
  | .decspr => Sys2Proof.Machine.execDecspr s
  | .decode => Sys2Proof.Machine.execDecode s
  | .frame => Sys2Proof.Machine.execFrame s

end Sys2Proof.Machine
end

