-- ==== Sys2Proof/Machine/Step.lean ====
section
/-! DEFINITION. One step of HVDEC with its host: the engine's completion step when it is due, else a turn of the host (00_scope.md R8, R9; 60_exceptions.md R88). -/

namespace Sys2Proof.Machine

/-- The engine's completion step for the latched word (R58, R88). -/
def engineStep (w : Word) (s : State) : Host.Outcome State Fault Refusal :=
  match decode w with
  | .ok i => exec i s
  | .error _ => execIllegal s

/-- One step (log 1): a pending command completes when its delay is used up; before that, and while the latch is
idle, the host has a turn. -/
def step (s : State) : Host.Outcome State Fault Refusal :=
  match s.latch, s.delay with
  | .pending w, 0 => engineStep w s
  | .pending _, d + 1 => hostTurn { s with delay := d }
  | .idle, _ => hostTurn s

/-- `s` with the opcode table's word `w` of `nbits` bits accepted as a command (R87) and its completion step due next.
HVDEC fetches no instructions (R16): a command word comes from the host's CMD write, for which this stands (log 10). -/
def State.withFetchWord (s : State) (nbits w : Nat) : State :=
  { s.accept (BitVec.ofNat 32 (w % 2 ^ nbits)) with delay := 0 }

end Sys2Proof.Machine
end

