-- ==== Sys2Proof/Machine/Script.lean ====
section
/-! DEFINITION. The host-script operations of 30_encoding.md R59 as host actions, and the place of the window in the host's address space (20_memory.md R39). -/

namespace Sys2Proof.Machine

/-- The offset of a register (10_state.md section 3). -/
def Reg.offset : Reg → Offset
  | .ctrl => 0x00
  | .cmd => 0x04
  | .status => 0x08
  | .width => 0x0C
  | .height => 0x10
  | .format => 0x14
  | .pcur => 0x18
  | .srcLen => 0x1C
  | .dmxLen => 0x20
  | .chunk => 0x24
  | .gap => 0x28
  | .sector => 0x2C

/-- `wr REG, v`. -/
def scriptWr (r : Reg) (v : Word) : HostAction := .write 4 r.offset v

/-- `rd REG`. -/
def scriptRd (r : Reg) : HostAction := .read 4 r.offset

/-- `rd PALn`. -/
def scriptRdPal (n : Fin 16) : HostAction := .read 4 (BitVec.ofNat 22 (0x40 + 4 * n.val))

/-- `wrb LBUF+k, v`. -/
def scriptWrb (k : Nat) (v : Byte) : HostAction := .write 1 (BitVec.ofNat 22 (0x100000 + k)) (v.setWidth 32)

/-- `rdb LBUF+k`. -/
def scriptRdbLbuf (k : Nat) : HostAction := .read 1 (BitVec.ofNat 22 (0x100000 + k))

/-- `rdb FB+k`. -/
def scriptRdbFb (k : Nat) : HostAction := .read 1 (BitVec.ofNat 22 (0x200000 + k))

/-- `cmd MNEMONIC`: `wr CMD, OP`. -/
def scriptCmd (i : Instr) : HostAction := scriptWr .cmd (encode i)

/-- `wait`: `rd STATUS`, repeated while bit 0 reads 1. -/
def scriptWait : HostAction := .wait

/-- `clr`: `wr STATUS, 0x0000000E`. -/
def scriptClr : HostAction := scriptWr .status 0x0000000E

/-- The host byte address of an offset of the window: HVDEC_BASE + offset (R39; log 2). -/
def hostAddress (off : Offset) : Nat := Config.hvdecBase + off.toNat

/-- The offset a host address selects; `none` is an address outside HVDEC's 4 MiB window, whose access never reaches
HVDEC (R39). -/
def windowOffset (addr : Nat) : Option Offset :=
  if Config.hvdecBase ≤ addr ∧ addr < Config.hvdecBase + 0x400000 then
    some (BitVec.ofNat 22 (addr - Config.hvdecBase))
  else none

/-- A host read by host address, as the action HVDEC sees. -/
def readAtAddress (bytes addr : Nat) : Option HostAction := (windowOffset addr).map (HostAction.read bytes)

/-- A host write by host address, as the action HVDEC sees. -/
def writeAtAddress (bytes addr : Nat) (v : Word) : Option HostAction :=
  (windowOffset addr).map (HostAction.write bytes · v)

end Sys2Proof.Machine
end

