-- ==== Sys2Proof/Safety.lean ====
section
/-! DEFINITION. What counts as a sound state and a safe host: the invariant that every step keeps, and the accesses the bus does not refuse. -/

namespace Sys2Proof.Machine

/-- The invariant of HVDEC with its host. -/
structure State.Inv (s : State) : Prop where
  /-- LBUF is canonical and inside its 131072 bytes (R33). -/
  lbuf_wf : Memory.wf s.lbuf
  lbuf_below : Memory.below Config.lbufBytes s.lbuf
  /-- FB is canonical and inside its 786432 bytes (R34). -/
  fb_wf : Memory.wf s.fb
  fb_below : Memory.below Config.fbBytes s.fb
  /-- SRC is canonical and has 32-bit addresses (R39). -/
  src_wf : Memory.wf s.src
  src_below : Memory.below Config.srcBytes s.src
  /-- The reserved codes 9..15 are never produced (R90, U7). -/
  err_defined : s.status.err.toNat ≤ 8
  /-- While a command is pending, DONE = 0 and ERR = 0 (R87). -/
  pending_clear : s.busy = true → s.status.done = false ∧ s.status.err = 0
  /-- While the latch is idle nothing of a command is left over. -/
  idle_clear : s.busy = false → s.delay = 0 ∧ s.srcTouched = false

/-- The host access is one the bus does not refuse (R43). -/
def busAccepts (a : HostAction) : Bool :=
  match a with
  | .read bytes off => (locate bytes off.toNat).isSome
  | .write bytes off _ =>
    match locate bytes off.toNat with
    | some (.reg _) | some (.lbuf _) => true
    | some (.pal _) | some (.fb _) | none => false
  | .wait | .srcStore _ _ | .reset => true

/-- A host all of whose coming accesses are accepted by the bus. -/
def State.hostSafe (s : State) : Prop := ∀ a ∈ s.hostQueue, busAccepts a = true

/-- `k` steps, stopping at the first fault or refusal. -/
def runSteps : Nat → State → Host.Outcome State Fault Refusal
  | 0, s => .next s
  | k + 1, s =>
    match step s with
    | .next t => runSteps k t
    | .fault r => .fault r
    | .refused r => .refused r

end Sys2Proof.Machine
end

