-- ==== Sys2Proof/Certificates/Slice0/Obligations.lean ====
section
/-! DEFINITION. The statements about HVDEC, for the provers: one Prop per statement, from the numbered rules of spec/. -/

open Sys2Proof Sys2Proof.Machine

/-! ### Words used by several statements -/

/-- `s` at the end of a command with this ERR code and no other effect: BUSY = 0, DONE = 1, ERR = code (R88, R89).
`srcTouched` is the model's own note about the command that ended (log 6). -/
def Sys2Proof.Machine.endedWith (s : State) (code : BitVec 4) : State :=
  { s with latch := .idle, srcTouched := false, status := { s.status with done := true, err := code } }

/-- a(k) of R65, written out. -/
def Sys2Proof.Machine.addressOf (s : State) (k : Nat) : Nat :=
  s.pcur.toNat + k / s.chunk.toNat * (s.chunk.toNat + s.gap.toNat) + k % s.chunk.toNat

/-- p0 + adv(N) of R67, written out. -/
def Sys2Proof.Machine.cursorAfter (s : State) (n : Nat) : Nat :=
  s.pcur.toNat + n / s.chunk.toNat * (s.chunk.toNat + s.gap.toNat)
    + (if 0 < n % s.chunk.toNat ∨ s.ctrl.zskip = true then s.sector.toNat else 0)

/-- What a command reads at SRC address `a` (R47, R66): 0 at or beyond SRC_LEN, the host's byte below it, or a free
byte where the host changed SRC under the command (R107). -/
def Sys2Proof.Machine.sourceByte (s : State) (a : Nat) : Byte :=
  if s.srcLen.toNat ≤ a then 0 else if s.srcTouched = true then Config.srcDraw s.draws a else s.srcByte a

/-- The effects of demultiplexing `n` bytes (R66, R67, R68). -/
def Sys2Proof.Machine.Demultiplexed (s t : State) (n : Nat) : Prop :=
  (∀ k, k < n → t.lbufByte k = sourceByte s (addressOf s k))
    ∧ (∀ k, n ≤ k → t.lbufByte k = s.lbufByte k)
    ∧ t.pcur.toNat = cursorAfter s n
    ∧ (t.status.short = true ↔ s.status.short = true ∨ (0 < n ∧ s.srcLen.toNat ≤ addressOf s (n - 1)))

/-- Palette entry `e` stands at pixel (x, y) of the frame in FB (R35). -/
def Sys2Proof.Machine.Stored (s t : State) (x y : Nat) (e : Rgb) : Prop :=
  t.fbByte (3 * (y * s.width.toNat + x)) = e.r
    ∧ t.fbByte (3 * (y * s.width.toNat + x) + 1) = e.g
    ∧ t.fbByte (3 * (y * s.width.toNat + x) + 2) = e.b

/-- FB holds the BG frame decoded from the LBUF bytes `lb`, and no other FB byte changed (R74, R76). -/
def Sys2Proof.Machine.BgFrame (s t : State) (lb : Nat → Byte) : Prop :=
  (∀ tx ty r x, tx < s.width.toNat / 8 → ty < s.height.toNat / 8 → r < 8 → x < 8 →
      Stored s t (8 * tx + x) (8 * ty + r)
        (s.pal.get (tileIndex lb (ty * (s.width.toNat / 8) + tx) r x).toFin))
    ∧ ∀ p, 3 * (s.width.toNat * s.height.toNat) ≤ p → t.fbByte p = s.fbByte p

/-- FB holds the SPR frame decoded from the LBUF bytes `lb`, and no other FB byte changed (R79, R80, R81). -/
def Sys2Proof.Machine.SprFrame (s t : State) (lb : Nat → Byte) : Prop :=
  (∀ j i r x, j < s.width.toNat / 32 → i < s.height.toNat / 8 → r < 16 → x < 16 →
      Stored s t ((i &&& 1) * 16 + j * 32 + x) ((i >>> 1) * 16 + r)
        (s.pal.get (cellIndex lb (j * (s.height.toNat / 8) + i) r x).toFin))
    ∧ ∀ p, 3 * (s.width.toNat * s.height.toNat) ≤ p → t.fbByte p = s.fbByte p

/-- Width and height are in 1..512 (R91). -/
def Sys2Proof.Machine.DimOk (s : State) : Prop :=
  1 ≤ s.width.toNat ∧ s.width.toNat ≤ 512 ∧ 1 ≤ s.height.toNat ∧ s.height.toNat ≤ 512

/-- Width and height suit the BG tiling (R91). -/
def Sys2Proof.Machine.AlignBg (s : State) : Prop := s.width.toNat % 8 = 0 ∧ s.height.toNat % 8 = 0

/-- Width and height suit the SPR tiling (R91). -/
def Sys2Proof.Machine.AlignSpr (s : State) : Prop := s.width.toNat % 32 = 0 ∧ s.height.toNat % 16 = 0

/-- CHUNK and SECTOR are usable (R69). -/
def Sys2Proof.Machine.ConfigOk (s : State) : Prop := s.chunk.toNat ≠ 0 ∧ s.chunk.toNat ≤ s.sector.toNat

/-- A reserved offset of the window (R40). -/
def Sys2Proof.Machine.ReservedOffset (off : Nat) : Prop :=
  0x30 ≤ off ∧ off < 0x40 ∨ 0x80 ≤ off ∧ off < 0x100000 ∨ 0x120000 ≤ off ∧ off < 0x200000 ∨ 0x2C0000 ≤ off

/-- An access of the register or PAL range that is not an aligned 32-bit one (R41). -/
def Sys2Proof.Machine.BadWordAccess (bytes off : Nat) : Prop :=
  (off < 0x30 ∨ 0x40 ≤ off ∧ off < 0x80) ∧ ¬ (bytes = 4 ∧ off % 4 = 0)

/-- An access of a buffer window of a disallowed width or misaligned (R42). -/
def Sys2Proof.Machine.BadLaneAccess (bytes off : Nat) : Prop :=
  (0x100000 ≤ off ∧ off < 0x120000 ∨ 0x200000 ≤ off ∧ off < 0x2C0000)
    ∧ ¬ ((bytes = 1 ∨ bytes = 2 ∨ bytes = 4) ∧ off % bytes = 0)

/-! ### Encoding -/

/-- R57: each command is selected by exactly its word of the table, and its word is what the encoder gives. -/
def Obligations.CommandWordsExact : Prop :=
  (∀ (w : Word) (i : Instr), decode w = .ok i ↔ w = encode i)
    ∧ encode .nop = 0x00000000 ∧ encode .ldpal = 0x00000001 ∧ encode .demux = 0x00000002
    ∧ encode .decbg = 0x00000003 ∧ encode .decspr = 0x00000004 ∧ encode .decode = 0x00000005
    ∧ encode .frame = 0x00000006

/-- R57: the words of the opcode table, through the byte decoder, little-endian (R45). -/
def Obligations.TableWordsDecode : Prop :=
  decodeTableWord 32 0x00000000 = some .nop ∧ decodeTableWord 32 0x00000001 = some .ldpal
    ∧ decodeTableWord 32 0x00000002 = some .demux ∧ decodeTableWord 32 0x00000003 = some .decbg
    ∧ decodeTableWord 32 0x00000004 = some .decspr ∧ decodeTableWord 32 0x00000005 = some .decode
    ∧ decodeTableWord 32 0x00000006 = some .frame ∧ decodeTableWord 32 0x00000007 = none
    ∧ decodeTableWord 32 0x00000010 = none
    ∧ decodeBytes [0x06, 0x00, 0x00, 0x00, 0xAB] = some (.ok .frame, [0xAB])
    ∧ decodeBytes [0x00, 0x00, 0x00, 0x06] = some (.error .mbzNotZero, [])

/-- R58: an illegal word is accepted like any other, completes with ERR = 1 and changes nothing else; every word is
one of the seven or illegal. -/
def Obligations.IllegalWordsEndWithErr1 : Prop :=
  (∀ (s : State) (w : Word), s.latch = .idle → ∃ t, busWrite s 4 0x04 w = some t ∧ t.latch = .pending w)
    ∧ (∀ (s : State) (w : Word), (w.extractLsb' 4 28 ≠ 0 ∨ 7 ≤ (w.extractLsb' 0 4).toNat) →
        s.latch = .pending w → s.delay = 0 → step s = .next (endedWith s 1))
    ∧ ∀ w : Word, (∃ i, w = encode i) ↔ ¬ (w.extractLsb' 4 28 ≠ 0 ∨ 7 ≤ (w.extractLsb' 0 4).toNat)

/-! ### The step -/

/-- The due step runs the decoded command, from a pending latch and from withFetchWord alike (R57, R88). -/
def Obligations.DueStepRunsDecodedCommand : Prop :=
  (∀ (s : State) (w : Word) (i : Instr), s.latch = .pending w → s.delay = 0 → decode w = .ok i → step s = exec i s)
    ∧ ∀ (s : State) (i : Instr),
        step (s.withFetchWord 32 (encode i).toNat) = exec i (s.withFetchWord 32 (encode i).toNat)

/-- Before the completion is due, and while idle, the host has the turn, and an idle HVDEC with a silent host holds
all its state (R50, R88, R101; the countdown is the model's form of LATENCY, log 1). -/
def Obligations.HostTurnsOtherwise : Prop :=
  (∀ (s : State) (w : Word) (d : Nat), s.latch = .pending w → s.delay = d + 1 → step s = hostTurn { s with delay := d })
    ∧ (∀ s : State, s.latch = .idle → step s = hostTurn s)
    ∧ ∀ s : State, s.latch = .idle → s.hostQueue = [] → step s = .next s

/-- R38: the reset values. The LBUF and FB bytes are free values (log 4). -/
def Obligations.ResetValues : Prop :=
  readReg State.reset .ctrl = 0 ∧ State.reset.ctrl.ie = false ∧ State.reset.ctrl.zskip = false
    ∧ readReg State.reset .status = 0 ∧ State.reset.busy = false ∧ State.reset.status.done = false
    ∧ State.reset.status.short = false ∧ State.reset.status.ovr = false ∧ State.reset.status.err = 0
    ∧ State.reset.width = 0 ∧ State.reset.height = 0 ∧ State.reset.format = 0
    ∧ State.reset.pcur = 0 ∧ State.reset.srcLen = 0 ∧ State.reset.dmxLen = 0
    ∧ State.reset.chunk = 0x0800 ∧ State.reset.gap = 0x0130 ∧ State.reset.sector = 0x0930
    ∧ (∀ i, State.reset.pal.get i = { r := 0, g := 0, b := 0 })
    ∧ (∀ k, State.reset.lbufByte k = Config.lbufInit 0 k) ∧ (∀ k, State.reset.fbByte k = Config.fbInit 0 k)
    ∧ State.reset.latch = .idle ∧ State.reset.irq = false

/-- The reset input, at any turn of the host, puts every register and PAL at its reset value, leaves every LBUF and FB
byte unspecified anew, abandons a pending command and does not write SRC (R102, R103). The model's own choices: reset is
one atomic turn after which the rest of the host queue, the last bus answer and the draw count are as before (logs 7,
13), and the turns themselves (log 1). -/
def Obligations.ResetInputAbandonsCommand : Prop :=
  ∀ (s : State) (rest : List HostAction), s.hostQueue = .reset :: rest → (s.latch = .idle ∨ 0 < s.delay) →
    ∃ t, step s = .next t
      ∧ t = { State.reset with
          src := s.src
          hostQueue := rest
          response := s.response
          draws := s.draws
          epoch := s.epoch + 1 }
      ∧ (∀ k, t.lbufByte k = Config.lbufInit (s.epoch + 1) k)
      ∧ (∀ k, t.fbByte k = Config.fbInit (s.epoch + 1) k)
      ∧ t.latch = .idle ∧ t.status.done = false ∧ t.irq = false

/-- The reset state has the invariant. -/
def Obligations.ResetHasInvariant : Prop := State.reset.Inv

/-- Every step keeps the invariant: canonical memories inside their bounds, no reserved ERR code, DONE = 0 and ERR = 0
while a command is pending. -/
def Obligations.StepKeepsInvariant : Prop :=
  ∀ s t : State, s.Inv → step s = .next t → t.Inv

/-! ### Command lifecycle -/

/-- R87: acceptance. Every word is accepted while idle; while a command is pending the write is dropped and sets OVR. -/
def Obligations.CmdWriteAcceptsWord : Prop :=
  ∀ (s : State) (w : Word),
    (s.latch = .idle → ∃ t, busWrite s 4 0x04 w = some t
      ∧ t = { s with
          latch := .pending w
          status := { s.status with done := false, err := 0 }
          srcTouched := false
          delay := t.delay
          draws := t.draws }
      ∧ t.busy = true ∧ t.irq = false)
    ∧ ∀ v, s.latch = .pending v → busWrite s 4 0x04 w = some { s with status := { s.status with ovr := true } }

/-- Every command word, legal or not, completes: BUSY = 0, DONE = 1, OVR kept, ERR one of 0..8, IRQ at the level of
CTRL.IE (R88, R90, R93). -/
def Obligations.EveryWordCompletes : Prop :=
  ∀ (s : State) (w : Word), s.latch = .pending w → s.delay = 0 →
    ∃ t, step s = .next t ∧ t.latch = .idle ∧ t.busy = false ∧ t.status.done = true
      ∧ t.status.ovr = s.status.ovr ∧ t.status.err.toNat ≤ 8 ∧ t.irq = s.ctrl.ie

/-- R89: a command that ends in an error changes only STATUS. -/
def Obligations.FailedCommandChangesOnlyStatus : Prop :=
  ∀ (s t : State) (w : Word), s.latch = .pending w → s.delay = 0 → step s = .next t → t.status.err ≠ 0 →
    t = endedWith s t.status.err

/-- No command writes SRC, a control register or anything of the host (R15, R46, R56), whatever the word. -/
def Obligations.CompletionKeepsSrcAndControls : Prop :=
  ∀ (s t : State) (w : Word), engineStep w s = .next t →
    t.src = s.src ∧ t.ctrl = s.ctrl ∧ t.width = s.width ∧ t.height = s.height ∧ t.format = s.format
      ∧ t.srcLen = s.srcLen ∧ t.dmxLen = s.dmxLen ∧ t.chunk = s.chunk ∧ t.gap = s.gap ∧ t.sector = s.sector
      ∧ t.hostQueue = s.hostQueue ∧ t.response = s.response

/-- Which command may write LBUF, FB, PAL and PCUR (the writes column of R56), and SHORT (R20, R68). -/
def Obligations.CommandsWriteOnlyTheirOwn : Prop :=
  ∀ (i : Instr) (s t : State), exec i s = .next t →
    (i ≠ .demux → i ≠ .frame → t.lbuf = s.lbuf ∧ t.status.short = s.status.short)
      ∧ (i ≠ .decbg → i ≠ .decspr → i ≠ .decode → i ≠ .frame → t.fb = s.fb)
      ∧ (i ≠ .ldpal → t.pal = s.pal)
      ∧ (i ≠ .ldpal → i ≠ .demux → i ≠ .frame → t.pcur = s.pcur)

/-- PAL changes only in the completion of a successful LDPAL, and FB only in that of a DECBG, DECSPR, DECODE or FRAME
(R32, R34) that ends with no error (R89); else only by the reset input, taken at a turn of the host (R103). That a
completion is due when `delay` is 0, and that the host has the turn while it is not, is the model's choice (log 1). -/
def Obligations.PalAndFbChangeOnlyByTheirCommands : Prop :=
  ∀ s t : State, step s = .next t →
    (t.pal ≠ s.pal → (s.latch = .pending 0x00000001 ∧ s.delay = 0 ∧ t.status.err = 0)
      ∨ (∃ rest, s.hostQueue = .reset :: rest) ∧ (s.latch = .idle ∨ 0 < s.delay))
    ∧ (t.fb ≠ s.fb → (∃ w, s.latch = .pending w ∧ s.delay = 0 ∧ t.status.err = 0
        ∧ (w = 0x00000003 ∨ w = 0x00000004 ∨ w = 0x00000005 ∨ w = 0x00000006))
      ∨ (∃ rest, s.hostQueue = .reset :: rest) ∧ (s.latch = .idle ∨ 0 < s.delay))

/-- No host action but reset cancels a pending command: every other turn leaves it pending, one turn nearer (R88). -/
def Obligations.OnlyResetCancels : Prop :=
  ∀ (s t : State) (w : Word) (d : Nat), s.latch = .pending w → s.delay = d + 1 → step s = .next t →
    (t.latch = .pending w ∧ t.delay = d)
      ∨ ∃ rest, s.hostQueue = .reset :: rest ∧ t.latch = .idle ∧ t.status.done = false

/-- Every pending command completes, `delay` turns later, whatever a host does that makes no refused access and does
not reset (R88, R110). -/
def Obligations.PendingCommandCompletes : Prop :=
  ∀ (s : State) (w : Word), s.latch = .pending w → s.hostSafe → HostAction.reset ∉ s.hostQueue →
    ∃ t, runSteps (s.delay + 1) s = .next t ∧ t.latch = .idle ∧ t.status.done = true

/-! ### NOP and LDPAL -/

/-- R82: NOP changes only BUSY, DONE and ERR. -/
def Obligations.NopChangesOnlyStatus : Prop := ∀ s : State, exec .nop s = .next (endedWith s 0)

/-- R60, R61: the colour of two raw bytes, channel by channel, with truncating division; hi[7:1] never matter. -/
def Obligations.PaletteColourChannels : Prop :=
  ∀ lo hi : Byte,
    (paletteColour lo hi).r.toNat = 255 * (lo.toNat / 8 % 8) / 7
      ∧ (paletteColour lo hi).g.toNat = 255 * (4 * (hi.toNat % 2) + lo.toNat / 64) / 7
      ∧ (paletteColour lo hi).b.toNat = 255 * (lo.toNat % 8) / 7

/-- R62, R63: LDPAL loads all 16 entries and advances PCUR by 32 when the 32 bytes exist; else PAL_SHORT. -/
def Obligations.LdpalLoadsPalette : Prop :=
  ∀ s : State,
    (s.pcur.toNat + 32 ≤ s.srcLen.toNat → ∃ t, exec .ldpal s = .next t
      ∧ (∀ i : Fin 16, t.pal.get i = paletteColour (sourceByte s (s.pcur.toNat + 2 * i.val))
          (sourceByte s (s.pcur.toNat + 2 * i.val + 1)))
      ∧ t.pcur.toNat = s.pcur.toNat + 32
      ∧ t = { endedWith s 0 with pal := t.pal, pcur := t.pcur })
    ∧ (s.srcLen.toNat < s.pcur.toNat + 32 → exec .ldpal s = .next (endedWith s 8))

/-! ### DEMUX -/

/-- R66, R67, R68: the result of a DEMUX whose checks pass, and all it leaves unchanged. -/
def Obligations.DemuxResult : Prop :=
  ∀ s : State, ConfigOk s → s.dmxLen.toNat ≤ 131072 → cursorAfter s s.dmxLen.toNat ≤ 0xFFFFFFFF →
    ∃ t, exec .demux s = .next t ∧ Demultiplexed s t s.dmxLen.toNat
      ∧ t = { endedWith s 0 with
          lbuf := t.lbuf
          pcur := t.pcur
          status := { s.status with done := true, err := 0, short := t.status.short } }

/-- R69: the checks of DEMUX, in order; the first that fails gives ERR and nothing else changes. -/
def Obligations.DemuxChecksInOrder : Prop :=
  ∀ s : State,
    (¬ ConfigOk s → exec .demux s = .next (endedWith s 5))
    ∧ (ConfigOk s → 131072 < s.dmxLen.toNat → exec .demux s = .next (endedWith s 6))
    ∧ (ConfigOk s → s.dmxLen.toNat ≤ 131072 → 0xFFFFFFFF < cursorAfter s s.dmxLen.toNat →
        exec .demux s = .next (endedWith s 7))

/-- The addresses rise, so what is zero-filled is a tail of the logical bytes (R65, R66). -/
def Obligations.ZeroFillIsATail : Prop :=
  ∀ s : State, ConfigOk s → s.dmxLen.toNat ≤ 131072 → cursorAfter s s.dmxLen.toNat ≤ 0xFFFFFFFF →
    (∀ k k', k < k' → addressOf s k < addressOf s k')
    ∧ ∀ t k k', exec .demux s = .next t → s.srcLen.toNat ≤ addressOf s k → k ≤ k' → k' < s.dmxLen.toNat →
        t.lbufByte k' = 0 ∧ t.status.short = true

/-- The loop of R64 gives what the closed forms of R66, R67 and R68 give: the same LBUF, cursor and short reads. -/
def Obligations.DemuxLoopMeetsClosedForms : Prop :=
  ∀ (s : State) (n : Nat), ConfigOk s →
    (∀ k, Memory.byteAt (demuxProcedure s n).lbuf k = Memory.byteAt (demuxInto s n).lbuf k)
      ∧ (demuxProcedure s n).p = cursorAfter s n
      ∧ ((demuxProcedure s n).short = true ↔ 0 < n ∧ s.srcLen.toNat ≤ addressOf s (n - 1))

/-- With C + G = S a successful DEMUX or FRAME moves PCUR by whole sectors: those its payload touched, and one more for
ZSKIP when the length is a whole number of chunks (R67, R71). -/
def Obligations.AdvanceByWholeSectors : Prop :=
  ∀ s t : State, s.chunk.toNat + s.gap.toNat = s.sector.toNat → t.status.err = 0 →
    (exec .demux s = .next t → t.pcur.toNat = s.pcur.toNat
      + s.sector.toNat * ((s.dmxLen.toNat + s.chunk.toNat - 1) / s.chunk.toNat
          + (if s.dmxLen.toNat % s.chunk.toNat = 0 ∧ s.ctrl.zskip = true then 1 else 0)))
    ∧ (exec .frame s = .next t → t.pcur.toNat = s.pcur.toNat
      + s.sector.toNat * ((s.width.toNat * s.height.toNat / 2 + s.chunk.toNat - 1) / s.chunk.toNat
          + (if s.width.toNat * s.height.toNat / 2 % s.chunk.toNat = 0 ∧ s.ctrl.zskip = true then 1 else 0)))

/-! ### DECBG and DECSPR -/

/-- R72, R74: the four bits of a tile pixel's index and the plane bytes of R73 they come from. -/
def Obligations.TileIndexBits : Prop :=
  ∀ (lb : Nat → Byte) (t r x : Nat), x < 8 →
    (tileIndex lb t r x).toNat
      = (lb (32 * t + 2 * r)).toNat / 2 ^ (7 - x) % 2 + 2 * ((lb (32 * t + 2 * r + 1)).toNat / 2 ^ (7 - x) % 2)
        + 4 * ((lb (32 * t + 16 + 2 * r)).toNat / 2 ^ (7 - x) % 2)
        + 8 * ((lb (32 * t + 16 + 2 * r + 1)).toNat / 2 ^ (7 - x) % 2)

/-- R75: the shifting procedure gives the indices of R74 from the rightmost pixel to the left, and its 16-bit form
those of R80. -/
def Obligations.ShiftingRowsAgree : Prop :=
  (∀ (lb : Nat → Byte) (t r : Nat),
    shiftRow 8 (lb (32 * t + 2 * r)) (lb (32 * t + 2 * r + 1)) (lb (32 * t + 16 + 2 * r)) (lb (32 * t + 16 + 2 * r + 1))
      = (List.range 8).map (fun n => tileIndex lb t r (7 - n)))
    ∧ ∀ (lb : Nat → Byte) (c r : Nat),
        shiftRow 16 (cellWord lb c r) (cellWord lb c (16 + r)) (cellWord lb c (32 + r)) (cellWord lb c (48 + r))
          = (List.range 16).map (fun n => cellIndex lb c r (15 - n))

/-- R76: DECBG decodes the whole frame, or reports BAD_DIM, then BAD_ALIGN. -/
def Obligations.DecbgDecodesTiles : Prop :=
  ∀ s : State,
    (DimOk s → AlignBg s → ∃ t, exec .decbg s = .next t ∧ BgFrame s t s.lbufByte
      ∧ t = { endedWith s 0 with fb := t.fb })
    ∧ (¬ DimOk s → exec .decbg s = .next (endedWith s 3))
    ∧ (DimOk s → ¬ AlignBg s → exec .decbg s = .next (endedWith s 4))

/-- The loops of R76 store what DECBG leaves in FB. -/
def Obligations.DecbgMeetsStoreLoop : Prop :=
  ∀ s : State, DimOk s → AlignBg s → ∃ t, exec .decbg s = .next t
    ∧ ∀ p, Memory.byteAt t.fb p = Memory.byteAt (bgStoreLoop s) p

/-- R78, R80: the little-endian cell words and the four bits of a sprite pixel's index. -/
def Obligations.CellIndexBits : Prop :=
  (∀ (lb : Nat → Byte) (c n : Nat),
    (cellWord lb c n).toNat = (lb (128 * c + 2 * n)).toNat + 256 * (lb (128 * c + 2 * n + 1)).toNat)
    ∧ ∀ (lb : Nat → Byte) (c r x : Nat), x < 16 →
      (cellIndex lb c r x).toNat
        = (cellWord lb c r).toNat / 2 ^ (15 - x) % 2 + 2 * ((cellWord lb c (16 + r)).toNat / 2 ^ (15 - x) % 2)
          + 4 * ((cellWord lb c (32 + r)).toNat / 2 ^ (15 - x) % 2)
          + 8 * ((cellWord lb c (48 + r)).toNat / 2 ^ (15 - x) % 2)

/-- R81: DECSPR decodes the whole frame, or reports BAD_DIM, then BAD_ALIGN. -/
def Obligations.DecsprDecodesCells : Prop :=
  ∀ s : State,
    (DimOk s → AlignSpr s → ∃ t, exec .decspr s = .next t ∧ SprFrame s t s.lbufByte
      ∧ t = { endedWith s 0 with fb := t.fb })
    ∧ (¬ DimOk s → exec .decspr s = .next (endedWith s 3))
    ∧ (DimOk s → ¬ AlignSpr s → exec .decspr s = .next (endedWith s 4))

/-- The cells tile the W x H frame exactly once, with no pixel outside it (R79). -/
def Obligations.CellsTileFrameOnce : Prop :=
  ∀ w h : Nat, w % 32 = 0 → h % 16 = 0 →
    (∀ j i r x, j < w / 32 → i < h / 8 → r < 16 → x < 16 → cellU i j + x < w ∧ cellV i + r < h)
    ∧ ∀ px py, px < w → py < h →
      ∃ j i r x, (j < w / 32 ∧ i < h / 8 ∧ r < 16 ∧ x < 16 ∧ px = cellU i j + x ∧ py = cellV i + r)
        ∧ ∀ j' i' r' x', j' < w / 32 → i' < h / 8 → r' < 16 → x' < 16 → px = cellU i' j' + x' →
            py = cellV i' + r' → j' = j ∧ i' = i ∧ r' = r ∧ x' = x

/-- The loops of R81 store what DECSPR leaves in FB. -/
def Obligations.DecsprMeetsStoreLoop : Prop :=
  ∀ s : State, DimOk s → AlignSpr s → ∃ t, exec .decspr s = .next t
    ∧ ∀ p, Memory.byteAt t.fb p = Memory.byteAt (sprStoreLoop s) p

/-! ### DECODE and FRAME -/

/-- R83: DECODE refuses FORMAT 2..255 first, and else performs the decoder of FORMAT, its checks and its effects. -/
def Obligations.DecodeByFormat : Prop :=
  ∀ s : State,
    (1 < s.format.toNat → exec .decode s = .next (endedWith s 2))
    ∧ (s.format = 0 → exec .decode s = exec .decbg s)
    ∧ (s.format = 1 → exec .decode s = exec .decspr s)
    ∧ (s.format = 0 → DimOk s → AlignBg s → ∃ t, exec .decode s = .next t ∧ BgFrame s t s.lbufByte
        ∧ t = { endedWith s 0 with fb := t.fb })
    ∧ (s.format = 1 → DimOk s → AlignSpr s → ∃ t, exec .decode s = .next t ∧ SprFrame s t s.lbufByte
        ∧ t = { endedWith s 0 with fb := t.fb })

/-- R84: the result of a FRAME whose checks pass: the demultiplexed LBUF, the frame decoded from it, and all it leaves
unchanged. -/
def Obligations.FrameResult : Prop :=
  ∀ s : State, DimOk s → ConfigOk s → cursorAfter s (s.width.toNat * s.height.toNat / 2) ≤ 0xFFFFFFFF →
    (s.format = 0 ∧ AlignBg s ∨ s.format = 1 ∧ AlignSpr s) →
    ∃ t, exec .frame s = .next t ∧ Demultiplexed s t (s.width.toNat * s.height.toNat / 2)
      ∧ (s.format = 0 → BgFrame s t t.lbufByte) ∧ (s.format = 1 → SprFrame s t t.lbufByte)
      ∧ t = { endedWith s 0 with
          lbuf := t.lbuf
          fb := t.fb
          pcur := t.pcur
          status := { s.status with done := true, err := 0, short := t.status.short } }

/-- R84, R92: the checks of FRAME, in order; the first that fails gives ERR and nothing else changes. -/
def Obligations.FrameChecksInOrder : Prop :=
  ∀ s : State,
    (1 < s.format.toNat → exec .frame s = .next (endedWith s 2))
    ∧ (s.format.toNat ≤ 1 → ¬ DimOk s → exec .frame s = .next (endedWith s 3))
    ∧ (DimOk s → (s.format = 0 ∧ ¬ AlignBg s ∨ s.format = 1 ∧ ¬ AlignSpr s) → exec .frame s = .next (endedWith s 4))
    ∧ (DimOk s → (s.format = 0 ∧ AlignBg s ∨ s.format = 1 ∧ AlignSpr s) → ¬ ConfigOk s →
        exec .frame s = .next (endedWith s 5))
    ∧ (DimOk s → (s.format = 0 ∧ AlignBg s ∨ s.format = 1 ∧ AlignSpr s) → ConfigOk s →
        0xFFFFFFFF < cursorAfter s (s.width.toNat * s.height.toNat / 2) → exec .frame s = .next (endedWith s 7))

/-- FRAME's effects are those of DEMUX with DMX_LEN = W*H/2 followed by DECODE, with DMX_LEN left alone (R84). -/
def Obligations.FrameIsDemuxThenDecode : Prop :=
  ∀ s t : State, exec .frame s = .next t → t.status.err = 0 →
    ∃ u v, exec .demux { s with dmxLen := BitVec.ofNat 32 (s.width.toNat * s.height.toNat / 2) } = .next u
      ∧ u.status.err = 0 ∧ exec .decode u = .next v ∧ v.status.err = 0 ∧ t = { v with dmxLen := s.dmxLen }

/-- A tile or cell that lies wholly in the zero-filled tail shows PAL[0] in all its pixels (R84, C9). -/
def Obligations.UnreadTilesShowColourZero : Prop :=
  ∀ s t : State, exec .frame s = .next t → t.status.err = 0 →
    (s.format = 0 → ∀ tx ty r x, tx < s.width.toNat / 8 → ty < s.height.toNat / 8 → r < 8 → x < 8 →
      s.srcLen.toNat ≤ addressOf s (32 * (ty * (s.width.toNat / 8) + tx)) →
      Stored s t (8 * tx + x) (8 * ty + r) (s.pal.get 0))
    ∧ (s.format = 1 → ∀ j i r x, j < s.width.toNat / 32 → i < s.height.toNat / 8 → r < 16 → x < 16 →
      s.srcLen.toNat ≤ addressOf s (128 * (j * (s.height.toNat / 8) + i)) →
      Stored s t (cellU i j + x) (cellV i + r) (s.pal.get 0))

/-! ### The host's side -/

/-- What every register reads as, reserved bits 0 (R17 to R29); all but PCUR also while BUSY = 1 (R37). -/
def Obligations.RegisterReads : Prop :=
  ∀ s : State,
    busRead s 4 0x00 = some (BitVec.ofNat 32 (s.ctrl.ie.toNat + 2 * s.ctrl.zskip.toNat))
    ∧ busRead s 4 0x04 = some 0
    ∧ busRead s 4 0x08 = some (BitVec.ofNat 32 (s.busy.toNat + 2 * s.status.done.toNat + 4 * s.status.short.toNat
        + 8 * s.status.ovr.toNat + 256 * s.status.err.toNat))
    ∧ busRead s 4 0x0C = some (BitVec.ofNat 32 s.width.toNat)
    ∧ busRead s 4 0x10 = some (BitVec.ofNat 32 s.height.toNat)
    ∧ busRead s 4 0x14 = some (BitVec.ofNat 32 s.format.toNat)
    ∧ (s.latch = .idle → busRead s 4 0x18 = some s.pcur)
    ∧ busRead s 4 0x1C = some s.srcLen
    ∧ busRead s 4 0x20 = some s.dmxLen
    ∧ busRead s 4 0x24 = some (BitVec.ofNat 32 s.chunk.toNat)
    ∧ busRead s 4 0x28 = some (BitVec.ofNat 32 s.gap.toNat)
    ∧ busRead s 4 0x2C = some (BitVec.ofNat 32 s.sector.toNat)

/-- R30: PALn holds R, G, B from the low byte up and reads so while idle; a write to it gets a bus error. -/
def Obligations.PalRegistersReadOnly : Prop :=
  ∀ (s : State) (n : Fin 16) (v : Word),
    (s.latch = .idle → busRead s 4 (0x40 + 4 * n.val) = some (BitVec.ofNat 32
      ((s.pal.get n).r.toNat + 256 * (s.pal.get n).g.toNat + 65536 * (s.pal.get n).b.toNat)))
    ∧ busWrite s 4 (0x40 + 4 * n.val) v = none

/-- While idle, a write to a register sets its field, drops its reserved bits and changes nothing else (R17, R18, R21
to R29). -/
def Obligations.IdleRegisterWrites : Prop :=
  ∀ (s : State) (v : Word), s.latch = .idle →
    busWrite s 4 0x00 v = some { s with ctrl := { ie := v.getLsbD 0, zskip := v.getLsbD 1 } }
    ∧ busWrite s 4 0x0C v = some { s with width := BitVec.ofNat 16 v.toNat }
    ∧ busWrite s 4 0x10 v = some { s with height := BitVec.ofNat 16 v.toNat }
    ∧ busWrite s 4 0x14 v = some { s with format := BitVec.ofNat 8 v.toNat }
    ∧ busWrite s 4 0x18 v = some { s with pcur := v }
    ∧ busWrite s 4 0x1C v = some { s with srcLen := v }
    ∧ busWrite s 4 0x20 v = some { s with dmxLen := v }
    ∧ busWrite s 4 0x24 v = some { s with chunk := BitVec.ofNat 16 v.toNat }
    ∧ busWrite s 4 0x28 v = some { s with gap := BitVec.ofNat 16 v.toNat }
    ∧ busWrite s 4 0x2C v = some { s with sector := BitVec.ofNat 16 v.toNat }

/-- R20: a STATUS write clears DONE, SHORT and OVR where its bit is 1, leaves BUSY and ERR, and takes effect whether or
not BUSY = 1. -/
def Obligations.StatusWriteOneToClear : Prop :=
  ∀ (s : State) (v : Word), ∃ t, busWrite s 4 0x08 v = some t
    ∧ t = { s with status := t.status }
    ∧ (t.status.done = true ↔ s.status.done = true ∧ v.getLsbD 1 = false)
    ∧ (t.status.short = true ↔ s.status.short = true ∧ v.getLsbD 2 = false)
    ∧ (t.status.ovr = true ↔ s.status.ovr = true ∧ v.getLsbD 3 = false)
    ∧ t.status.err = s.status.err

/-- R31: while BUSY = 1 every legal write but one to STATUS is dropped and sets only OVR, so that every register and
buffer byte a running command reads keeps its value through every host turn but a reset; a write to STATUS is never
dropped. -/
def Obligations.BusyWritesDropped : Prop :=
  (∀ (s t : State) (bytes off : Nat) (v : Word), s.busy = true → off ≠ 0x08 → busWrite s bytes off v = some t →
    t = { s with status := { s.status with ovr := true } })
  ∧ (∀ s t : State, s.busy = true → hostTurn s = .next t → t.busy = true →
      t.latch = s.latch ∧ t.ctrl = s.ctrl ∧ t.width = s.width ∧ t.height = s.height ∧ t.format = s.format
        ∧ t.pcur = s.pcur ∧ t.srcLen = s.srcLen ∧ t.dmxLen = s.dmxLen ∧ t.chunk = s.chunk ∧ t.gap = s.gap
        ∧ t.sector = s.sector ∧ t.pal = s.pal ∧ t.lbuf = s.lbuf ∧ t.fb = s.fb ∧ t.status.err = s.status.err)
  ∧ ∀ (s : State) (v : Word), s.busy = true → ∃ t, busWrite s 4 0x08 v = some t
      ∧ (t.status.ovr = true ↔ s.status.ovr = true ∧ v.getLsbD 3 = false)

/-- R43: exactly which accesses get a bus error, whether or not BUSY = 1 (R92), and that one is a fault of the host's
access for a model, at any turn of the host (the turns are the model's form of LATENCY, log 1). -/
def Obligations.BusErrorCases : Prop :=
  (∀ (s : State) (bytes off : Nat) (v : Word),
    (busRead s bytes off = none ↔ ReservedOffset off ∨ BadWordAccess bytes off ∨ BadLaneAccess bytes off)
    ∧ (busWrite s bytes off v = none ↔ ReservedOffset off ∨ BadWordAccess bytes off ∨ BadLaneAccess bytes off
        ∨ (0x40 ≤ off ∧ off < 0x80) ∨ (0x200000 ≤ off ∧ off < 0x2C0000)))
  ∧ (∀ (s : State) (bytes : Nat) (off : Offset) (rest : List HostAction), (s.latch = .idle ∨ 0 < s.delay) →
      s.hostQueue = .read bytes off :: rest → busRead s bytes off.toNat = none →
      step s = .fault (.busError (.read bytes off)))
  ∧ ∀ (s : State) (bytes : Nat) (off : Offset) (v : Word) (rest : List HostAction),
      (s.latch = .idle ∨ 0 < s.delay) → s.hostQueue = .write bytes off v :: rest → busWrite s bytes off.toNat v = none →
      step s = .fault (.busError (.write bytes off v))

/-- The LBUF and FB windows are little-endian, for each legal width, and an LBUF write changes its bytes and nothing else
(R33, R42, R45). That a narrow access carries its bytes in the low bytes of a written value, and answers a read
zero-extended, is the model's reading (log 16). -/
def Obligations.WindowsLittleEndian : Prop :=
  ∀ (s : State) (k : Nat), s.latch = .idle →
    (∀ v, k < 131072 → ∃ t, busWrite s 1 (0x100000 + k) v = some t ∧ t = { s with lbuf := t.lbuf }
      ∧ (t.lbufByte k).toNat = v.toNat % 256 ∧ ∀ a, a ≠ k → t.lbufByte a = s.lbufByte a)
    ∧ (∀ v, k % 2 = 0 → k < 131072 → ∃ t, busWrite s 2 (0x100000 + k) v = some t ∧ t = { s with lbuf := t.lbuf }
      ∧ (t.lbufByte k).toNat = v.toNat % 256 ∧ (t.lbufByte (k + 1)).toNat = v.toNat / 256 % 256
      ∧ ∀ a, (a < k ∨ k + 2 ≤ a) → t.lbufByte a = s.lbufByte a)
    ∧ (∀ v, k % 4 = 0 → k < 131072 → ∃ t, busWrite s 4 (0x100000 + k) v = some t ∧ t = { s with lbuf := t.lbuf }
      ∧ (t.lbufByte k).toNat = v.toNat % 256 ∧ (t.lbufByte (k + 1)).toNat = v.toNat / 256 % 256
      ∧ (t.lbufByte (k + 2)).toNat = v.toNat / 65536 % 256 ∧ (t.lbufByte (k + 3)).toNat = v.toNat / 16777216
      ∧ ∀ a, (a < k ∨ k + 4 ≤ a) → t.lbufByte a = s.lbufByte a)
    ∧ (k < 131072 → busRead s 1 (0x100000 + k) = some (BitVec.ofNat 32 (s.lbufByte k).toNat))
    ∧ (k % 2 = 0 → k < 131072 → busRead s 2 (0x100000 + k)
        = some (BitVec.ofNat 32 ((s.lbufByte k).toNat + 256 * (s.lbufByte (k + 1)).toNat)))
    ∧ (k % 4 = 0 → k < 131072 → busRead s 4 (0x100000 + k)
        = some (BitVec.ofNat 32 ((s.lbufByte k).toNat + 256 * (s.lbufByte (k + 1)).toNat
            + 65536 * (s.lbufByte (k + 2)).toNat + 16777216 * (s.lbufByte (k + 3)).toNat)))
    ∧ (k < 786432 → busRead s 1 (0x200000 + k) = some (BitVec.ofNat 32 (s.fbByte k).toNat))
    ∧ (k % 2 = 0 → k < 786432 → busRead s 2 (0x200000 + k)
        = some (BitVec.ofNat 32 ((s.fbByte k).toNat + 256 * (s.fbByte (k + 1)).toNat)))
    ∧ (k % 4 = 0 → k < 786432 → busRead s 4 (0x200000 + k)
        = some (BitVec.ofNat 32 ((s.fbByte k).toNat + 256 * (s.fbByte (k + 1)).toNat
            + 65536 * (s.fbByte (k + 2)).toNat + 16777216 * (s.fbByte (k + 3)).toNat)))

/-- R44: a host read, or one poll of `wait`, changes nothing but the host's own side; the draw count is the model's (log 7). -/
def Obligations.HostReadsHaveNoSideEffect : Prop :=
  (∀ (s t : State) (bytes : Nat) (off : Offset) (rest : List HostAction),
    s.hostQueue = .read bytes off :: rest → hostTurn s = .next t →
    t = { s with hostQueue := rest, response := t.response, draws := t.draws }
      ∧ ∃ v, busRead s bytes off.toNat = some v ∧ t.response = .data v)
  ∧ ∀ (s t : State) (rest : List HostAction), s.hostQueue = .wait :: rest → hostTurn s = .next t →
    t = { s with hostQueue := t.hostQueue, response := t.response }
      ∧ (s.busy = true → t.hostQueue = s.hostQueue) ∧ (s.busy = false → t.hostQueue = rest)

/-- While BUSY = 1 a legal host read of LBUF, FB, PCUR or PAL, of each width, returns a free value, new at each access
(R37, R106). The numbering of the draws is the model's (log 7), as are the low bytes of a narrow answer (log 16). -/
def Obligations.BusyReadsAreFree : Prop :=
  ∀ s : State, s.busy = true →
    busRead s 4 0x18 = some (Config.readDraw s.draws)
    ∧ (∀ n : Fin 16, busRead s 4 (0x40 + 4 * n.val) = some (Config.readDraw s.draws))
    ∧ (∀ k, k < 131072 → busRead s 1 (0x100000 + k)
        = some (BitVec.ofNat 32 ((Config.readDraw s.draws).toNat % 256)))
    ∧ (∀ k, k < 786432 → busRead s 1 (0x200000 + k)
        = some (BitVec.ofNat 32 ((Config.readDraw s.draws).toNat % 256)))
    ∧ (∀ k, k % 2 = 0 → k < 131072 → busRead s 2 (0x100000 + k)
        = some (BitVec.ofNat 32 ((Config.readDraw s.draws).toNat % 65536)))
    ∧ (∀ k, k % 2 = 0 → k < 786432 → busRead s 2 (0x200000 + k)
        = some (BitVec.ofNat 32 ((Config.readDraw s.draws).toNat % 65536)))
    ∧ (∀ k, k % 4 = 0 → k < 131072 → busRead s 4 (0x100000 + k) = some (Config.readDraw s.draws))
    ∧ (∀ k, k % 4 = 0 → k < 786432 → busRead s 4 (0x200000 + k) = some (Config.readDraw s.draws))
    ∧ ∀ v, (s.answerRead v).draws = s.draws + 1

/-- R93: the level of IRQ, what raises and what clears it. -/
def Obligations.IrqLevel : Prop :=
  (∀ s : State, s.irq = true ↔ s.ctrl.ie = true ∧ s.status.done = true)
  ∧ (∀ (i : Instr) (s t : State), exec i s = .next t → t.irq = s.ctrl.ie)
  ∧ (∀ (s t : State) (v : Word), v.getLsbD 1 = true → busWrite s 4 0x08 v = some t → t.irq = false)
  ∧ (∀ (s t : State) (w : Word), s.latch = .idle → busWrite s 4 0x04 w = some t → t.irq = false)
  ∧ ∀ (s t : State) (v : Word), s.latch = .idle → v.getLsbD 0 = false → busWrite s 4 0x00 v = some t →
      t.irq = false ∧ t.status.done = s.status.done

/-- A SRC read below SRC_LEN answers the host's byte, and ABSENT from SRC_LEN on (R47); where the host changed SRC below
SRC_LEN under a pending command each byte is a free draw, and any other store of the host frees none (R107 as log 6
reads it; `srcTouched` is the model's note of it). -/
def Obligations.SrcReads : Prop :=
  (∀ (s : State) (a : Nat), s.srcLen.toNat ≤ a → s.memRead a = none)
  ∧ (∀ (s : State) (a : Nat), a < s.srcLen.toNat → s.srcTouched = false → s.memRead a = some (s.srcByte a))
  ∧ (∀ (s : State) (a : Word) (b : Byte) (rest : List HostAction), s.hostQueue = .srcStore a b :: rest →
      ∃ t, hostTurn s = .next t ∧ t.srcByte a.toNat = b ∧ (∀ x, x ≠ a.toNat → t.srcByte x = s.srcByte x)
        ∧ t = { s with hostQueue := rest, src := t.src, srcTouched := t.srcTouched }
        ∧ (s.busy = true → a.toNat < s.srcLen.toNat → ∀ x, x < s.srcLen.toNat →
            t.memRead x = some (Config.srcDraw s.draws x))
        ∧ (s.busy = false ∨ s.srcLen.toNat ≤ a.toNat → t.srcTouched = s.srcTouched))

/-- The 4 MiB window stands at HVDEC_BASE, whatever that is, and no address outside it reaches HVDEC (R39). -/
def Obligations.WindowAtAnyBase : Prop :=
  (∀ off : Offset, windowOffset (hostAddress off) = some off)
  ∧ ∀ addr, (addr < Config.hvdecBase ∨ Config.hvdecBase + 0x400000 ≤ addr) → windowOffset addr = none
end

