-- ==== Sys2Proof/Laws/Memory.lean ====
section
/-! SUPPORT. The laws of byte memories: what a read after a range write gives, that a range write keeps the canonical form and the bound, and that canonical memories with equal reads are equal. -/

namespace Sys2Proof.Machine

@[simp] theorem Memory.byteAt_nil (a : Nat) : Memory.byteAt [] a = none := rfl

@[simp] theorem Memory.byteAt_cons (c : Host.Cell) (m : Memory) (a : Nat) :
    Memory.byteAt (c :: m) a = if c.1 = a then some c.2 else Memory.byteAt m a := rfl

theorem Memory.byteAt_append (m m' : Memory) (a : Nat) :
    Memory.byteAt (m ++ m') a = (Memory.byteAt m a).or (Memory.byteAt m' a) := by
  induction m with
  | nil => simp
  | cons c m ih => by_cases h : c.1 = a <;> simp [h, ih]

/-- Reading a memory filtered by address. -/
theorem Memory.byteAt_filter (p : Nat → Bool) (m : Memory) (a : Nat) :
    Memory.byteAt (m.filter (fun c => p c.1)) a = if p a then Memory.byteAt m a else none := by
  induction m with
  | nil => simp
  | cons c m ih =>
    by_cases hp : p c.1 <;> by_cases h : c.1 = a <;> simp_all

theorem Memory.byteAt_map_range (base n : Nat) (f : Nat → Byte) (a : Nat) :
    Memory.byteAt ((List.range n).map (fun i => (base + i, f i))) a
      = if base ≤ a ∧ a < base + n then some (f (a - base)) else none := by
  induction n with
  | zero => simp
  | succ n ih =>
    rw [List.range_succ, List.map_append, Memory.byteAt_append, ih]
    rcases Nat.lt_trichotomy a (base + n) with h | h | h
    · have h1 : base + n ≠ a := by omega
      have h2 : a < base + (n + 1) := by omega
      simp [h, h1, h2]
    · subst h; simp
    · have h1 : base + n ≠ a := by omega
      have h2 : ¬ a < base + n := by omega
      have h3 : ¬ a < base + (n + 1) := by omega
      simp [h1, h2, h3]

/-- A read after a range write: the written byte inside the range, the old reading outside. -/
theorem Memory.byteAt_writeRange (m : Memory) (base n : Nat) (f : Nat → Byte) (a : Nat) :
    Memory.byteAt (Memory.writeRange m base n f) a
      = if base ≤ a ∧ a < base + n then some (f (a - base)) else Memory.byteAt m a := by
  unfold Memory.writeRange
  rw [Memory.byteAt_append, Memory.byteAt_append, Memory.byteAt_map_range,
    Memory.byteAt_filter (fun k => decide (k < base)), Memory.byteAt_filter (fun k => decide (base + n ≤ k))]
  by_cases h1 : a < base
  · have h2 : ¬ base ≤ a := by omega
    have h3 : ¬ base + n ≤ a := by omega
    simp [h1, h2, h3]
  · by_cases h2 : a < base + n
    · have h3 : base ≤ a := by omega
      simp [h1, h2, h3]
    · have h3 : base + n ≤ a := by omega
      simp [h1, h2, h3]

/-- Outside the written range nothing changes. -/
theorem Memory.byteAt_writeRange_outside {m : Memory} {base n : Nat} {f : Nat → Byte} {a : Nat}
    (h : a < base ∨ base + n ≤ a) : Memory.byteAt (Memory.writeRange m base n f) a = Memory.byteAt m a := by
  rw [Memory.byteAt_writeRange, if_neg (by omega)]

/-- Inside the written range the new byte is read. -/
theorem Memory.byteAt_writeRange_inside {m : Memory} {base n : Nat} {f : Nat → Byte} {i : Nat} (h : i < n) :
    Memory.byteAt (Memory.writeRange m base n f) (base + i) = some (f i) := by
  rw [Memory.byteAt_writeRange, if_pos (by omega), Nat.add_sub_cancel_left]

/-- A range write keeps the canonical form. -/
theorem Memory.wf_writeRange {m : Memory} (h : Memory.wf m) (base n : Nat) (f : Nat → Byte) :
    Memory.wf (Memory.writeRange m base n f) := by
  unfold Memory.writeRange Memory.wf
  rw [List.pairwise_append, List.pairwise_append]
  refine ⟨⟨h.filter _, ?_, ?_⟩, h.filter _, ?_⟩
  · rw [List.pairwise_map]
    exact List.pairwise_lt_range.imp (by intro a b hab; simp only; omega)
  · intro c hc d hd
    simp only [List.mem_filter, List.mem_map, List.mem_range, decide_eq_true_eq] at hc hd
    obtain ⟨i, _, rfl⟩ := hd
    simp only; omega
  · intro c hc d hd
    simp only [List.mem_append, List.mem_filter, List.mem_map, List.mem_range, decide_eq_true_eq] at hc hd
    rcases hc with hc | ⟨i, hi, rfl⟩
    · omega
    · simp only; omega

/-- A range write inside the first `bound` addresses keeps every listed address below `bound`. -/
theorem Memory.below_writeRange {m : Memory} {bound : Nat} (h : Memory.below bound m) {base n : Nat}
    (hb : base + n ≤ bound) (f : Nat → Byte) : Memory.below bound (Memory.writeRange m base n f) := by
  intro c hc
  simp only [Memory.writeRange, List.mem_append, List.mem_filter, List.mem_map, List.mem_range,
    decide_eq_true_eq] at hc
  rcases hc with (hc | ⟨i, hi, rfl⟩) | hc
  · exact h c hc.1
  · simp only; omega
  · exact h c hc.1

/-- A byte is listed at `a` exactly when a cell of a canonical memory says so. -/
theorem Memory.byteAt_eq_some_iff {m : Memory} (h : Memory.wf m) (a : Nat) (v : Byte) :
    Memory.byteAt m a = some v ↔ (a, v) ∈ m := by
  induction m with
  | nil => simp
  | cons c m ih =>
    obtain ⟨hc, hm⟩ := List.pairwise_cons.mp h
    rw [Memory.byteAt_cons, List.mem_cons]
    by_cases hca : c.1 = a
    · have : (a, v) ∉ m := fun hmem => by have := hc _ hmem; simp only at this; omega
      simp only [hca, if_true, this, or_false, Option.some.injEq]
      exact ⟨fun e => by rw [← e, ← hca], fun e => by rw [← e]⟩
    · rw [if_neg hca, ih hm]
      exact ⟨Or.inr, fun e => e.resolve_left (fun e => hca (by rw [← e]))⟩

/-- Canonical memories with equal reads are equal data. -/
theorem Memory.ext_of_byteAt {m m' : Memory} (h : Memory.wf m) (h' : Memory.wf m')
    (heq : ∀ a, Memory.byteAt m a = Memory.byteAt m' a) : m = m' := by
  have hmem : ∀ c, c ∈ m ↔ c ∈ m' := fun c => by
    rw [← Memory.byteAt_eq_some_iff h, ← Memory.byteAt_eq_some_iff h', heq]
  have nd : ∀ {l : Memory}, Memory.wf l → l.Nodup := fun hl =>
    hl.imp (fun {a b} hab e => by rw [e] at hab; exact Nat.lt_irrefl _ hab)
  have hperm : m.Perm m' := (List.perm_ext_iff_of_nodup (nd h) (nd h')).mpr hmem
  exact hperm.eq_of_pairwise (fun a b _ _ hab hba => absurd hab (by omega)) h h'

end Sys2Proof.Machine
end

