-- ==== Sys2Proof/Laws/State.lean ====
section
/-! SUPPORT. One lemma per field per update of State, so that no proof unfolds a record update. -/

namespace Sys2Proof.Machine

/-! ### State.finish -/

@[simp] theorem State.finish_ctrl (s : State) (code : BitVec 4) : (s.finish code).ctrl = s.ctrl := rfl
@[simp] theorem State.finish_status (s : State) (code : BitVec 4) : (s.finish code).status = s.status.completed code := rfl
@[simp] theorem State.finish_width (s : State) (code : BitVec 4) : (s.finish code).width = s.width := rfl
@[simp] theorem State.finish_height (s : State) (code : BitVec 4) : (s.finish code).height = s.height := rfl
@[simp] theorem State.finish_format (s : State) (code : BitVec 4) : (s.finish code).format = s.format := rfl
@[simp] theorem State.finish_pcur (s : State) (code : BitVec 4) : (s.finish code).pcur = s.pcur := rfl
@[simp] theorem State.finish_srcLen (s : State) (code : BitVec 4) : (s.finish code).srcLen = s.srcLen := rfl
@[simp] theorem State.finish_dmxLen (s : State) (code : BitVec 4) : (s.finish code).dmxLen = s.dmxLen := rfl
@[simp] theorem State.finish_chunk (s : State) (code : BitVec 4) : (s.finish code).chunk = s.chunk := rfl
@[simp] theorem State.finish_gap (s : State) (code : BitVec 4) : (s.finish code).gap = s.gap := rfl
@[simp] theorem State.finish_sector (s : State) (code : BitVec 4) : (s.finish code).sector = s.sector := rfl
@[simp] theorem State.finish_pal (s : State) (code : BitVec 4) : (s.finish code).pal = s.pal := rfl
@[simp] theorem State.finish_lbuf (s : State) (code : BitVec 4) : (s.finish code).lbuf = s.lbuf := rfl
@[simp] theorem State.finish_fb (s : State) (code : BitVec 4) : (s.finish code).fb = s.fb := rfl
@[simp] theorem State.finish_latch (s : State) (code : BitVec 4) : (s.finish code).latch = .idle := rfl
@[simp] theorem State.finish_src (s : State) (code : BitVec 4) : (s.finish code).src = s.src := rfl
@[simp] theorem State.finish_hostQueue (s : State) (code : BitVec 4) : (s.finish code).hostQueue = s.hostQueue := rfl
@[simp] theorem State.finish_response (s : State) (code : BitVec 4) : (s.finish code).response = s.response := rfl
@[simp] theorem State.finish_delay (s : State) (code : BitVec 4) : (s.finish code).delay = s.delay := rfl
@[simp] theorem State.finish_srcTouched (s : State) (code : BitVec 4) : (s.finish code).srcTouched = false := rfl
@[simp] theorem State.finish_draws (s : State) (code : BitVec 4) : (s.finish code).draws = s.draws := rfl
@[simp] theorem State.finish_epoch (s : State) (code : BitVec 4) : (s.finish code).epoch = s.epoch := rfl

/-! ### State.accept -/

@[simp] theorem State.accept_ctrl (s : State) (w : Word) : (s.accept w).ctrl = s.ctrl := rfl
@[simp] theorem State.accept_status (s : State) (w : Word) : (s.accept w).status = s.status.accepted := rfl
@[simp] theorem State.accept_width (s : State) (w : Word) : (s.accept w).width = s.width := rfl
@[simp] theorem State.accept_height (s : State) (w : Word) : (s.accept w).height = s.height := rfl
@[simp] theorem State.accept_format (s : State) (w : Word) : (s.accept w).format = s.format := rfl
@[simp] theorem State.accept_pcur (s : State) (w : Word) : (s.accept w).pcur = s.pcur := rfl
@[simp] theorem State.accept_srcLen (s : State) (w : Word) : (s.accept w).srcLen = s.srcLen := rfl
@[simp] theorem State.accept_dmxLen (s : State) (w : Word) : (s.accept w).dmxLen = s.dmxLen := rfl
@[simp] theorem State.accept_chunk (s : State) (w : Word) : (s.accept w).chunk = s.chunk := rfl
@[simp] theorem State.accept_gap (s : State) (w : Word) : (s.accept w).gap = s.gap := rfl
@[simp] theorem State.accept_sector (s : State) (w : Word) : (s.accept w).sector = s.sector := rfl
@[simp] theorem State.accept_pal (s : State) (w : Word) : (s.accept w).pal = s.pal := rfl
@[simp] theorem State.accept_lbuf (s : State) (w : Word) : (s.accept w).lbuf = s.lbuf := rfl
@[simp] theorem State.accept_fb (s : State) (w : Word) : (s.accept w).fb = s.fb := rfl
@[simp] theorem State.accept_latch (s : State) (w : Word) : (s.accept w).latch = .pending w := rfl
@[simp] theorem State.accept_src (s : State) (w : Word) : (s.accept w).src = s.src := rfl
@[simp] theorem State.accept_hostQueue (s : State) (w : Word) : (s.accept w).hostQueue = s.hostQueue := rfl
@[simp] theorem State.accept_response (s : State) (w : Word) : (s.accept w).response = s.response := rfl
@[simp] theorem State.accept_delay (s : State) (w : Word) : (s.accept w).delay = Config.latency s.draws := rfl
@[simp] theorem State.accept_srcTouched (s : State) (w : Word) : (s.accept w).srcTouched = false := rfl
@[simp] theorem State.accept_draws (s : State) (w : Word) : (s.accept w).draws = s.draws + 1 := rfl
@[simp] theorem State.accept_epoch (s : State) (w : Word) : (s.accept w).epoch = s.epoch := rfl

/-! ### State.dropWrite -/

@[simp] theorem State.dropWrite_ctrl (s : State) : (s.dropWrite).ctrl = s.ctrl := rfl
@[simp] theorem State.dropWrite_status (s : State) : (s.dropWrite).status = s.status.overrun := rfl
@[simp] theorem State.dropWrite_width (s : State) : (s.dropWrite).width = s.width := rfl
@[simp] theorem State.dropWrite_height (s : State) : (s.dropWrite).height = s.height := rfl
@[simp] theorem State.dropWrite_format (s : State) : (s.dropWrite).format = s.format := rfl
@[simp] theorem State.dropWrite_pcur (s : State) : (s.dropWrite).pcur = s.pcur := rfl
@[simp] theorem State.dropWrite_srcLen (s : State) : (s.dropWrite).srcLen = s.srcLen := rfl
@[simp] theorem State.dropWrite_dmxLen (s : State) : (s.dropWrite).dmxLen = s.dmxLen := rfl
@[simp] theorem State.dropWrite_chunk (s : State) : (s.dropWrite).chunk = s.chunk := rfl
@[simp] theorem State.dropWrite_gap (s : State) : (s.dropWrite).gap = s.gap := rfl
@[simp] theorem State.dropWrite_sector (s : State) : (s.dropWrite).sector = s.sector := rfl
@[simp] theorem State.dropWrite_pal (s : State) : (s.dropWrite).pal = s.pal := rfl
@[simp] theorem State.dropWrite_lbuf (s : State) : (s.dropWrite).lbuf = s.lbuf := rfl
@[simp] theorem State.dropWrite_fb (s : State) : (s.dropWrite).fb = s.fb := rfl
@[simp] theorem State.dropWrite_latch (s : State) : (s.dropWrite).latch = s.latch := rfl
@[simp] theorem State.dropWrite_src (s : State) : (s.dropWrite).src = s.src := rfl
@[simp] theorem State.dropWrite_hostQueue (s : State) : (s.dropWrite).hostQueue = s.hostQueue := rfl
@[simp] theorem State.dropWrite_response (s : State) : (s.dropWrite).response = s.response := rfl
@[simp] theorem State.dropWrite_delay (s : State) : (s.dropWrite).delay = s.delay := rfl
@[simp] theorem State.dropWrite_srcTouched (s : State) : (s.dropWrite).srcTouched = s.srcTouched := rfl
@[simp] theorem State.dropWrite_draws (s : State) : (s.dropWrite).draws = s.draws := rfl
@[simp] theorem State.dropWrite_epoch (s : State) : (s.dropWrite).epoch = s.epoch := rfl

/-! ### State.srcStore -/

@[simp] theorem State.srcStore_ctrl (s : State) (a : Word) (b : Byte) : (s.srcStore a b).ctrl = s.ctrl := rfl
@[simp] theorem State.srcStore_status (s : State) (a : Word) (b : Byte) : (s.srcStore a b).status = s.status := rfl
@[simp] theorem State.srcStore_width (s : State) (a : Word) (b : Byte) : (s.srcStore a b).width = s.width := rfl
@[simp] theorem State.srcStore_height (s : State) (a : Word) (b : Byte) : (s.srcStore a b).height = s.height := rfl
@[simp] theorem State.srcStore_format (s : State) (a : Word) (b : Byte) : (s.srcStore a b).format = s.format := rfl
@[simp] theorem State.srcStore_pcur (s : State) (a : Word) (b : Byte) : (s.srcStore a b).pcur = s.pcur := rfl
@[simp] theorem State.srcStore_srcLen (s : State) (a : Word) (b : Byte) : (s.srcStore a b).srcLen = s.srcLen := rfl
@[simp] theorem State.srcStore_dmxLen (s : State) (a : Word) (b : Byte) : (s.srcStore a b).dmxLen = s.dmxLen := rfl
@[simp] theorem State.srcStore_chunk (s : State) (a : Word) (b : Byte) : (s.srcStore a b).chunk = s.chunk := rfl
@[simp] theorem State.srcStore_gap (s : State) (a : Word) (b : Byte) : (s.srcStore a b).gap = s.gap := rfl
@[simp] theorem State.srcStore_sector (s : State) (a : Word) (b : Byte) : (s.srcStore a b).sector = s.sector := rfl
@[simp] theorem State.srcStore_pal (s : State) (a : Word) (b : Byte) : (s.srcStore a b).pal = s.pal := rfl
@[simp] theorem State.srcStore_lbuf (s : State) (a : Word) (b : Byte) : (s.srcStore a b).lbuf = s.lbuf := rfl
@[simp] theorem State.srcStore_fb (s : State) (a : Word) (b : Byte) : (s.srcStore a b).fb = s.fb := rfl
@[simp] theorem State.srcStore_latch (s : State) (a : Word) (b : Byte) : (s.srcStore a b).latch = s.latch := rfl
@[simp] theorem State.srcStore_src (s : State) (a : Word) (b : Byte) : (s.srcStore a b).src = Memory.writeRange s.src a.toNat 1 (fun _ => b) := rfl
@[simp] theorem State.srcStore_hostQueue (s : State) (a : Word) (b : Byte) : (s.srcStore a b).hostQueue = s.hostQueue := rfl
@[simp] theorem State.srcStore_response (s : State) (a : Word) (b : Byte) : (s.srcStore a b).response = s.response := rfl
@[simp] theorem State.srcStore_delay (s : State) (a : Word) (b : Byte) : (s.srcStore a b).delay = s.delay := rfl
@[simp] theorem State.srcStore_srcTouched (s : State) (a : Word) (b : Byte) : (s.srcStore a b).srcTouched = (s.srcTouched || (s.busy && decide (a.toNat < s.srcLen.toNat))) := rfl
@[simp] theorem State.srcStore_draws (s : State) (a : Word) (b : Byte) : (s.srcStore a b).draws = s.draws := rfl
@[simp] theorem State.srcStore_epoch (s : State) (a : Word) (b : Byte) : (s.srcStore a b).epoch = s.epoch := rfl

/-! ### State.resetInput -/

@[simp] theorem State.resetInput_ctrl (s : State) : (s.resetInput).ctrl = State.reset.ctrl := rfl
@[simp] theorem State.resetInput_status (s : State) : (s.resetInput).status = State.reset.status := rfl
@[simp] theorem State.resetInput_width (s : State) : (s.resetInput).width = State.reset.width := rfl
@[simp] theorem State.resetInput_height (s : State) : (s.resetInput).height = State.reset.height := rfl
@[simp] theorem State.resetInput_format (s : State) : (s.resetInput).format = State.reset.format := rfl
@[simp] theorem State.resetInput_pcur (s : State) : (s.resetInput).pcur = State.reset.pcur := rfl
@[simp] theorem State.resetInput_srcLen (s : State) : (s.resetInput).srcLen = State.reset.srcLen := rfl
@[simp] theorem State.resetInput_dmxLen (s : State) : (s.resetInput).dmxLen = State.reset.dmxLen := rfl
@[simp] theorem State.resetInput_chunk (s : State) : (s.resetInput).chunk = State.reset.chunk := rfl
@[simp] theorem State.resetInput_gap (s : State) : (s.resetInput).gap = State.reset.gap := rfl
@[simp] theorem State.resetInput_sector (s : State) : (s.resetInput).sector = State.reset.sector := rfl
@[simp] theorem State.resetInput_pal (s : State) : (s.resetInput).pal = State.reset.pal := rfl
@[simp] theorem State.resetInput_lbuf (s : State) : (s.resetInput).lbuf = State.reset.lbuf := rfl
@[simp] theorem State.resetInput_fb (s : State) : (s.resetInput).fb = State.reset.fb := rfl
@[simp] theorem State.resetInput_latch (s : State) : (s.resetInput).latch = State.reset.latch := rfl
@[simp] theorem State.resetInput_src (s : State) : (s.resetInput).src = s.src := rfl
@[simp] theorem State.resetInput_hostQueue (s : State) : (s.resetInput).hostQueue = s.hostQueue := rfl
@[simp] theorem State.resetInput_response (s : State) : (s.resetInput).response = s.response := rfl
@[simp] theorem State.resetInput_delay (s : State) : (s.resetInput).delay = State.reset.delay := rfl
@[simp] theorem State.resetInput_srcTouched (s : State) : (s.resetInput).srcTouched = State.reset.srcTouched := rfl
@[simp] theorem State.resetInput_draws (s : State) : (s.resetInput).draws = s.draws := rfl
@[simp] theorem State.resetInput_epoch (s : State) : (s.resetInput).epoch = s.epoch + 1 := rfl

/-! ### palInto -/

@[simp] theorem palInto_ctrl (s : State) : (palInto s).ctrl = s.ctrl := rfl
@[simp] theorem palInto_status (s : State) : (palInto s).status = s.status := rfl
@[simp] theorem palInto_width (s : State) : (palInto s).width = s.width := rfl
@[simp] theorem palInto_height (s : State) : (palInto s).height = s.height := rfl
@[simp] theorem palInto_format (s : State) : (palInto s).format = s.format := rfl
@[simp] theorem palInto_pcur (s : State) : (palInto s).pcur = BitVec.ofNat 32 (s.cursor + Config.palRawBytes) := rfl
@[simp] theorem palInto_srcLen (s : State) : (palInto s).srcLen = s.srcLen := rfl
@[simp] theorem palInto_dmxLen (s : State) : (palInto s).dmxLen = s.dmxLen := rfl
@[simp] theorem palInto_chunk (s : State) : (palInto s).chunk = s.chunk := rfl
@[simp] theorem palInto_gap (s : State) : (palInto s).gap = s.gap := rfl
@[simp] theorem palInto_sector (s : State) : (palInto s).sector = s.sector := rfl
@[simp] theorem palInto_pal (s : State) : (palInto s).pal = newPal s := rfl
@[simp] theorem palInto_lbuf (s : State) : (palInto s).lbuf = s.lbuf := rfl
@[simp] theorem palInto_fb (s : State) : (palInto s).fb = s.fb := rfl
@[simp] theorem palInto_latch (s : State) : (palInto s).latch = s.latch := rfl
@[simp] theorem palInto_src (s : State) : (palInto s).src = s.src := rfl
@[simp] theorem palInto_hostQueue (s : State) : (palInto s).hostQueue = s.hostQueue := rfl
@[simp] theorem palInto_response (s : State) : (palInto s).response = s.response := rfl
@[simp] theorem palInto_delay (s : State) : (palInto s).delay = s.delay := rfl
@[simp] theorem palInto_srcTouched (s : State) : (palInto s).srcTouched = s.srcTouched := rfl
@[simp] theorem palInto_draws (s : State) : (palInto s).draws = s.draws := rfl
@[simp] theorem palInto_epoch (s : State) : (palInto s).epoch = s.epoch := rfl

/-! ### demuxInto -/

@[simp] theorem demuxInto_ctrl (s : State) (n : Nat) : (demuxInto s n).ctrl = s.ctrl := rfl
@[simp] theorem demuxInto_status (s : State) (n : Nat) : (demuxInto s n).status = s.status.afterDemux (zeroFilled s n) := rfl
@[simp] theorem demuxInto_width (s : State) (n : Nat) : (demuxInto s n).width = s.width := rfl
@[simp] theorem demuxInto_height (s : State) (n : Nat) : (demuxInto s n).height = s.height := rfl
@[simp] theorem demuxInto_format (s : State) (n : Nat) : (demuxInto s n).format = s.format := rfl
@[simp] theorem demuxInto_pcur (s : State) (n : Nat) : (demuxInto s n).pcur = BitVec.ofNat 32 (s.cursor + s.demuxAdvance n) := rfl
@[simp] theorem demuxInto_srcLen (s : State) (n : Nat) : (demuxInto s n).srcLen = s.srcLen := rfl
@[simp] theorem demuxInto_dmxLen (s : State) (n : Nat) : (demuxInto s n).dmxLen = s.dmxLen := rfl
@[simp] theorem demuxInto_chunk (s : State) (n : Nat) : (demuxInto s n).chunk = s.chunk := rfl
@[simp] theorem demuxInto_gap (s : State) (n : Nat) : (demuxInto s n).gap = s.gap := rfl
@[simp] theorem demuxInto_sector (s : State) (n : Nat) : (demuxInto s n).sector = s.sector := rfl
@[simp] theorem demuxInto_pal (s : State) (n : Nat) : (demuxInto s n).pal = s.pal := rfl
@[simp] theorem demuxInto_lbuf (s : State) (n : Nat) : (demuxInto s n).lbuf = Memory.writeRange s.lbuf 0 n (fun k => s.fetch (s.demuxAddr k)) := rfl
@[simp] theorem demuxInto_fb (s : State) (n : Nat) : (demuxInto s n).fb = s.fb := rfl
@[simp] theorem demuxInto_latch (s : State) (n : Nat) : (demuxInto s n).latch = s.latch := rfl
@[simp] theorem demuxInto_src (s : State) (n : Nat) : (demuxInto s n).src = s.src := rfl
@[simp] theorem demuxInto_hostQueue (s : State) (n : Nat) : (demuxInto s n).hostQueue = s.hostQueue := rfl
@[simp] theorem demuxInto_response (s : State) (n : Nat) : (demuxInto s n).response = s.response := rfl
@[simp] theorem demuxInto_delay (s : State) (n : Nat) : (demuxInto s n).delay = s.delay := rfl
@[simp] theorem demuxInto_srcTouched (s : State) (n : Nat) : (demuxInto s n).srcTouched = s.srcTouched := rfl
@[simp] theorem demuxInto_draws (s : State) (n : Nat) : (demuxInto s n).draws = s.draws := rfl
@[simp] theorem demuxInto_epoch (s : State) (n : Nat) : (demuxInto s n).epoch = s.epoch := rfl

/-! ### bgInto -/

@[simp] theorem bgInto_ctrl (s : State) : (bgInto s).ctrl = s.ctrl := rfl
@[simp] theorem bgInto_status (s : State) : (bgInto s).status = s.status := rfl
@[simp] theorem bgInto_width (s : State) : (bgInto s).width = s.width := rfl
@[simp] theorem bgInto_height (s : State) : (bgInto s).height = s.height := rfl
@[simp] theorem bgInto_format (s : State) : (bgInto s).format = s.format := rfl
@[simp] theorem bgInto_pcur (s : State) : (bgInto s).pcur = s.pcur := rfl
@[simp] theorem bgInto_srcLen (s : State) : (bgInto s).srcLen = s.srcLen := rfl
@[simp] theorem bgInto_dmxLen (s : State) : (bgInto s).dmxLen = s.dmxLen := rfl
@[simp] theorem bgInto_chunk (s : State) : (bgInto s).chunk = s.chunk := rfl
@[simp] theorem bgInto_gap (s : State) : (bgInto s).gap = s.gap := rfl
@[simp] theorem bgInto_sector (s : State) : (bgInto s).sector = s.sector := rfl
@[simp] theorem bgInto_pal (s : State) : (bgInto s).pal = s.pal := rfl
@[simp] theorem bgInto_lbuf (s : State) : (bgInto s).lbuf = s.lbuf := rfl
@[simp] theorem bgInto_fb (s : State) : (bgInto s).fb = Memory.writeRange s.fb 0 (3 * (s.frameW * s.frameH)) (frameByte s.pal s.frameW s.bgIndexAt) := rfl
@[simp] theorem bgInto_latch (s : State) : (bgInto s).latch = s.latch := rfl
@[simp] theorem bgInto_src (s : State) : (bgInto s).src = s.src := rfl
@[simp] theorem bgInto_hostQueue (s : State) : (bgInto s).hostQueue = s.hostQueue := rfl
@[simp] theorem bgInto_response (s : State) : (bgInto s).response = s.response := rfl
@[simp] theorem bgInto_delay (s : State) : (bgInto s).delay = s.delay := rfl
@[simp] theorem bgInto_srcTouched (s : State) : (bgInto s).srcTouched = s.srcTouched := rfl
@[simp] theorem bgInto_draws (s : State) : (bgInto s).draws = s.draws := rfl
@[simp] theorem bgInto_epoch (s : State) : (bgInto s).epoch = s.epoch := rfl

/-! ### sprInto -/

@[simp] theorem sprInto_ctrl (s : State) : (sprInto s).ctrl = s.ctrl := rfl
@[simp] theorem sprInto_status (s : State) : (sprInto s).status = s.status := rfl
@[simp] theorem sprInto_width (s : State) : (sprInto s).width = s.width := rfl
@[simp] theorem sprInto_height (s : State) : (sprInto s).height = s.height := rfl
@[simp] theorem sprInto_format (s : State) : (sprInto s).format = s.format := rfl
@[simp] theorem sprInto_pcur (s : State) : (sprInto s).pcur = s.pcur := rfl
@[simp] theorem sprInto_srcLen (s : State) : (sprInto s).srcLen = s.srcLen := rfl
@[simp] theorem sprInto_dmxLen (s : State) : (sprInto s).dmxLen = s.dmxLen := rfl
@[simp] theorem sprInto_chunk (s : State) : (sprInto s).chunk = s.chunk := rfl
@[simp] theorem sprInto_gap (s : State) : (sprInto s).gap = s.gap := rfl
@[simp] theorem sprInto_sector (s : State) : (sprInto s).sector = s.sector := rfl
@[simp] theorem sprInto_pal (s : State) : (sprInto s).pal = s.pal := rfl
@[simp] theorem sprInto_lbuf (s : State) : (sprInto s).lbuf = s.lbuf := rfl
@[simp] theorem sprInto_fb (s : State) : (sprInto s).fb = Memory.writeRange s.fb 0 (3 * (s.frameW * s.frameH)) (frameByte s.pal s.frameW s.sprIndexAt) := rfl
@[simp] theorem sprInto_latch (s : State) : (sprInto s).latch = s.latch := rfl
@[simp] theorem sprInto_src (s : State) : (sprInto s).src = s.src := rfl
@[simp] theorem sprInto_hostQueue (s : State) : (sprInto s).hostQueue = s.hostQueue := rfl
@[simp] theorem sprInto_response (s : State) : (sprInto s).response = s.response := rfl
@[simp] theorem sprInto_delay (s : State) : (sprInto s).delay = s.delay := rfl
@[simp] theorem sprInto_srcTouched (s : State) : (sprInto s).srcTouched = s.srcTouched := rfl
@[simp] theorem sprInto_draws (s : State) : (sprInto s).draws = s.draws := rfl
@[simp] theorem sprInto_epoch (s : State) : (sprInto s).epoch = s.epoch := rfl

/-! ### State.answerRead -/

@[simp] theorem State.answerRead_ctrl (s : State) (v : Word) : (s.answerRead v).ctrl = s.ctrl := rfl
@[simp] theorem State.answerRead_status (s : State) (v : Word) : (s.answerRead v).status = s.status := rfl
@[simp] theorem State.answerRead_width (s : State) (v : Word) : (s.answerRead v).width = s.width := rfl
@[simp] theorem State.answerRead_height (s : State) (v : Word) : (s.answerRead v).height = s.height := rfl
@[simp] theorem State.answerRead_format (s : State) (v : Word) : (s.answerRead v).format = s.format := rfl
@[simp] theorem State.answerRead_pcur (s : State) (v : Word) : (s.answerRead v).pcur = s.pcur := rfl
@[simp] theorem State.answerRead_srcLen (s : State) (v : Word) : (s.answerRead v).srcLen = s.srcLen := rfl
@[simp] theorem State.answerRead_dmxLen (s : State) (v : Word) : (s.answerRead v).dmxLen = s.dmxLen := rfl
@[simp] theorem State.answerRead_chunk (s : State) (v : Word) : (s.answerRead v).chunk = s.chunk := rfl
@[simp] theorem State.answerRead_gap (s : State) (v : Word) : (s.answerRead v).gap = s.gap := rfl
@[simp] theorem State.answerRead_sector (s : State) (v : Word) : (s.answerRead v).sector = s.sector := rfl
@[simp] theorem State.answerRead_pal (s : State) (v : Word) : (s.answerRead v).pal = s.pal := rfl
@[simp] theorem State.answerRead_lbuf (s : State) (v : Word) : (s.answerRead v).lbuf = s.lbuf := rfl
@[simp] theorem State.answerRead_fb (s : State) (v : Word) : (s.answerRead v).fb = s.fb := rfl
@[simp] theorem State.answerRead_latch (s : State) (v : Word) : (s.answerRead v).latch = s.latch := rfl
@[simp] theorem State.answerRead_src (s : State) (v : Word) : (s.answerRead v).src = s.src := rfl
@[simp] theorem State.answerRead_hostQueue (s : State) (v : Word) : (s.answerRead v).hostQueue = s.hostQueue := rfl
@[simp] theorem State.answerRead_response (s : State) (v : Word) : (s.answerRead v).response = .data v := rfl
@[simp] theorem State.answerRead_delay (s : State) (v : Word) : (s.answerRead v).delay = s.delay := rfl
@[simp] theorem State.answerRead_srcTouched (s : State) (v : Word) : (s.answerRead v).srcTouched = s.srcTouched := rfl
@[simp] theorem State.answerRead_draws (s : State) (v : Word) : (s.answerRead v).draws = if s.busy then s.draws + 1 else s.draws := rfl
@[simp] theorem State.answerRead_epoch (s : State) (v : Word) : (s.answerRead v).epoch = s.epoch := rfl

/-! ### State.withFetchWord -/

@[simp] theorem State.withFetchWord_ctrl (s : State) (nbits w : Nat) : (s.withFetchWord nbits w).ctrl = s.ctrl := rfl
@[simp] theorem State.withFetchWord_status (s : State) (nbits w : Nat) : (s.withFetchWord nbits w).status = s.status.accepted := rfl
@[simp] theorem State.withFetchWord_width (s : State) (nbits w : Nat) : (s.withFetchWord nbits w).width = s.width := rfl
@[simp] theorem State.withFetchWord_height (s : State) (nbits w : Nat) : (s.withFetchWord nbits w).height = s.height := rfl
@[simp] theorem State.withFetchWord_format (s : State) (nbits w : Nat) : (s.withFetchWord nbits w).format = s.format := rfl
@[simp] theorem State.withFetchWord_pcur (s : State) (nbits w : Nat) : (s.withFetchWord nbits w).pcur = s.pcur := rfl
@[simp] theorem State.withFetchWord_srcLen (s : State) (nbits w : Nat) : (s.withFetchWord nbits w).srcLen = s.srcLen := rfl
@[simp] theorem State.withFetchWord_dmxLen (s : State) (nbits w : Nat) : (s.withFetchWord nbits w).dmxLen = s.dmxLen := rfl
@[simp] theorem State.withFetchWord_chunk (s : State) (nbits w : Nat) : (s.withFetchWord nbits w).chunk = s.chunk := rfl
@[simp] theorem State.withFetchWord_gap (s : State) (nbits w : Nat) : (s.withFetchWord nbits w).gap = s.gap := rfl
@[simp] theorem State.withFetchWord_sector (s : State) (nbits w : Nat) : (s.withFetchWord nbits w).sector = s.sector := rfl
@[simp] theorem State.withFetchWord_pal (s : State) (nbits w : Nat) : (s.withFetchWord nbits w).pal = s.pal := rfl
@[simp] theorem State.withFetchWord_lbuf (s : State) (nbits w : Nat) : (s.withFetchWord nbits w).lbuf = s.lbuf := rfl
@[simp] theorem State.withFetchWord_fb (s : State) (nbits w : Nat) : (s.withFetchWord nbits w).fb = s.fb := rfl
@[simp] theorem State.withFetchWord_latch (s : State) (nbits w : Nat) : (s.withFetchWord nbits w).latch = .pending (BitVec.ofNat 32 (w % 2 ^ nbits)) := rfl
@[simp] theorem State.withFetchWord_src (s : State) (nbits w : Nat) : (s.withFetchWord nbits w).src = s.src := rfl
@[simp] theorem State.withFetchWord_hostQueue (s : State) (nbits w : Nat) : (s.withFetchWord nbits w).hostQueue = s.hostQueue := rfl
@[simp] theorem State.withFetchWord_response (s : State) (nbits w : Nat) : (s.withFetchWord nbits w).response = s.response := rfl
@[simp] theorem State.withFetchWord_delay (s : State) (nbits w : Nat) : (s.withFetchWord nbits w).delay = 0 := rfl
@[simp] theorem State.withFetchWord_srcTouched (s : State) (nbits w : Nat) : (s.withFetchWord nbits w).srcTouched = false := rfl
@[simp] theorem State.withFetchWord_draws (s : State) (nbits w : Nat) : (s.withFetchWord nbits w).draws = s.draws + 1 := rfl
@[simp] theorem State.withFetchWord_epoch (s : State) (nbits w : Nat) : (s.withFetchWord nbits w).epoch = s.epoch := rfl

/-! ### BUSY after the updates (R36) -/

@[simp] theorem State.finish_busy (s : State) (code : BitVec 4) : (s.finish code).busy = false := rfl
@[simp] theorem State.accept_busy (s : State) (w : Word) : (s.accept w).busy = true := rfl
@[simp] theorem State.dropWrite_busy (s : State) : s.dropWrite.busy = s.busy := rfl
@[simp] theorem State.srcStore_busy (s : State) (a : Word) (b : Byte) : (s.srcStore a b).busy = s.busy := rfl
@[simp] theorem State.resetInput_busy (s : State) : s.resetInput.busy = false := rfl
@[simp] theorem State.answerRead_busy (s : State) (v : Word) : (s.answerRead v).busy = s.busy := rfl

theorem State.busy_iff (s : State) : s.busy = true ↔ ∃ w, s.latch = .pending w := by
  cases h : s.latch <;> simp [State.busy, h]

theorem State.not_busy_iff (s : State) : s.busy = false ↔ s.latch = .idle := by
  cases h : s.latch <;> simp [State.busy, h]

/-! ### The fields of STATUS after each event (R20, R31, R68, R87, R88) -/

@[simp] theorem Status.completed_done (st : Status) (c : BitVec 4) : (st.completed c).done = true := rfl
@[simp] theorem Status.completed_short (st : Status) (c : BitVec 4) : (st.completed c).short = st.short := rfl
@[simp] theorem Status.completed_ovr (st : Status) (c : BitVec 4) : (st.completed c).ovr = st.ovr := rfl
@[simp] theorem Status.completed_err (st : Status) (c : BitVec 4) : (st.completed c).err = c := rfl
@[simp] theorem Status.accepted_done (st : Status) : st.accepted.done = false := rfl
@[simp] theorem Status.accepted_short (st : Status) : st.accepted.short = st.short := rfl
@[simp] theorem Status.accepted_ovr (st : Status) : st.accepted.ovr = st.ovr := rfl
@[simp] theorem Status.accepted_err (st : Status) : st.accepted.err = 0 := rfl
@[simp] theorem Status.overrun_done (st : Status) : st.overrun.done = st.done := rfl
@[simp] theorem Status.overrun_short (st : Status) : st.overrun.short = st.short := rfl
@[simp] theorem Status.overrun_ovr (st : Status) : st.overrun.ovr = true := rfl
@[simp] theorem Status.overrun_err (st : Status) : st.overrun.err = st.err := rfl
@[simp] theorem Status.afterDemux_done (st : Status) (z : Bool) : (st.afterDemux z).done = st.done := rfl
@[simp] theorem Status.afterDemux_short (st : Status) (z : Bool) : (st.afterDemux z).short = (st.short || z) := rfl
@[simp] theorem Status.afterDemux_ovr (st : Status) (z : Bool) : (st.afterDemux z).ovr = st.ovr := rfl
@[simp] theorem Status.afterDemux_err (st : Status) (z : Bool) : (st.afterDemux z).err = st.err := rfl
@[simp] theorem Status.writeOneToClear_err (st : Status) (v : Word) : (st.writeOneToClear v).err = st.err := rfl

end Sys2Proof.Machine
end

