-- ==== Sys2Proof/Laws/Commands.lean ====
section
/-! SUPPORT. What the commands can do, said once: every command is one completion (R88) of an error or of its effects; what each buffer and register operation leaves. -/

namespace Sys2Proof.Machine

/-! ### Checks and completion -/

@[simp] theorem firstError_nil : firstError [] = none := rfl

@[simp] theorem firstError_cons (b : Bool) (e : CmdError) (l : List (Bool × CmdError)) :
    firstError ((b, e) :: l) = if b then some e else firstError l := rfl

/-- No error is reported exactly when no check's condition holds. -/
theorem firstError_eq_none_iff (l : List (Bool × CmdError)) :
    firstError l = none ↔ ∀ c ∈ l, c.1 = false := by
  induction l with
  | nil => simp
  | cons c l ih => obtain ⟨b, e⟩ := c; cases b <;> simp [ih]

@[simp] theorem complete_some (s t : State) (e : CmdError) : complete s (some e) t = .next (s.finish e.code) := rfl

@[simp] theorem complete_none (s t : State) : complete s none t = .next (t.finish 0) := rfl

/-- A completion always answers a next state: the end of the command, with or without its effects. -/
theorem complete_cases {s t u : State} {e : Option CmdError} (h : complete s e t = .next u) :
    (∃ x, e = some x ∧ u = s.finish x.code) ∨ (e = none ∧ u = t.finish 0) := by
  cases e with
  | some x => exact .inl ⟨x, rfl, by simpa using h.symm⟩
  | none => exact .inr ⟨rfl, by simpa using h.symm⟩

theorem CmdError.code_ne_zero (e : CmdError) : e.code ≠ 0 := by cases e <;> decide

theorem CmdError.code_le (e : CmdError) : e.code.toNat ≤ 8 := by cases e <;> decide

/-- The error a command reports on a state, if any (R92). -/
def errorOf (i : Instr) (s : State) : Option CmdError :=
  match i with
  | .nop => none
  | .ldpal => firstError [(palShort s, .palShort)]
  | .demux =>
    firstError [(badConfig s, .badConfig), (lenRange s.demuxN, .lenRange), (cursorRange s s.demuxN, .cursorRange)]
  | .decbg => firstError (bgChecks s)
  | .decspr => firstError (sprChecks s)
  | .decode => firstError ((badFormat s, .badFormat) :: formatChecks s)
  | .frame =>
    firstError ((badFormat s, .badFormat) :: formatChecks s
      ++ [(badConfig s, .badConfig), (cursorRange s s.frameN, .cursorRange)])

/-- The effects of a command on a state when it reports no error. -/
def effectOf (i : Instr) (s : State) : State :=
  match i with
  | .nop => s
  | .ldpal => palInto s
  | .demux => demuxInto s s.demuxN
  | .decbg => bgInto s
  | .decspr => sprInto s
  | .decode => formatInto s
  | .frame => formatInto (demuxInto s s.frameN)

/-- Every command is one completion: this is all that exec does. -/
theorem exec_eq_complete (i : Instr) (s : State) : exec i s = complete s (errorOf i s) (effectOf i s) := by
  cases i <;> rfl

/-- What a command that answers a next state did: it reported its error and changed only STATUS (R89), or it took its
effects and ended with ERR = 0 (R88). -/
theorem exec_cases {i : Instr} {s t : State} (h : exec i s = .next t) :
    (∃ e, errorOf i s = some e ∧ t = s.finish e.code ∧ t.status.err ≠ 0)
      ∨ (errorOf i s = none ∧ t = (effectOf i s).finish 0 ∧ t.status.err = 0) := by
  rw [exec_eq_complete] at h
  rcases complete_cases h with ⟨e, he, rfl⟩ | ⟨he, rfl⟩
  · exact .inl ⟨e, he, rfl, e.code_ne_zero⟩
  · exact .inr ⟨he, rfl, rfl⟩

/-- `formatInto` is one of the two decoders. -/
theorem formatInto_cases (s : State) : formatInto s = bgInto s ∨ formatInto s = sprInto s := by
  unfold formatInto; split
  · exact .inl rfl
  · exact .inr rfl

/-- The effects of a command are one of these states. -/
theorem effectOf_cases (i : Instr) (s : State) :
    effectOf i s = s ∨ effectOf i s = palInto s ∨ (∃ n, effectOf i s = demuxInto s n)
      ∨ effectOf i s = bgInto s ∨ effectOf i s = sprInto s
      ∨ (∃ n, effectOf i s = bgInto (demuxInto s n)) ∨ (∃ n, effectOf i s = sprInto (demuxInto s n)) := by
  cases i with
  | nop => exact .inl rfl
  | ldpal => exact .inr (.inl rfl)
  | demux => exact .inr (.inr (.inl ⟨_, rfl⟩))
  | decbg => exact .inr (.inr (.inr (.inl rfl)))
  | decspr => exact .inr (.inr (.inr (.inr (.inl rfl))))
  | decode =>
    rcases formatInto_cases s with h | h
    · exact .inr (.inr (.inr (.inl h)))
    · exact .inr (.inr (.inr (.inr (.inl h))))
  | frame =>
    rcases formatInto_cases (demuxInto s s.frameN) with h | h
    · exact .inr (.inr (.inr (.inr (.inr (.inl ⟨_, h⟩)))))
    · exact .inr (.inr (.inr (.inr (.inr (.inr ⟨_, h⟩)))))

/-! ### When a check passes (R69, R91, R62) -/

theorem badFormat_false_iff (s : State) : badFormat s = false ↔ s.format.toNat ≤ 1 := by
  unfold badFormat; rw [decide_eq_false_iff_not]; unfold State.formatF; omega

theorem badDim_false_iff (s : State) :
    badDim s = false ↔ 1 ≤ s.width.toNat ∧ s.width.toNat ≤ 512 ∧ 1 ≤ s.height.toNat ∧ s.height.toNat ≤ 512 := by
  unfold badDim; rw [decide_eq_false_iff_not]; unfold State.frameW State.frameH Config.maxDim; omega

theorem badAlignBg_false_iff (s : State) :
    badAlignBg s = false ↔ s.width.toNat % 8 = 0 ∧ s.height.toNat % 8 = 0 := by
  unfold badAlignBg; rw [decide_eq_false_iff_not]; unfold State.frameW State.frameH; omega

theorem badAlignSpr_false_iff (s : State) :
    badAlignSpr s = false ↔ s.width.toNat % 32 = 0 ∧ s.height.toNat % 16 = 0 := by
  unfold badAlignSpr; rw [decide_eq_false_iff_not]; unfold State.frameW State.frameH; omega

theorem badConfig_false_iff (s : State) :
    badConfig s = false ↔ s.chunk.toNat ≠ 0 ∧ s.chunk.toNat ≤ s.sector.toNat := by
  unfold badConfig; rw [decide_eq_false_iff_not]; unfold State.chunkC State.sectorS; omega

theorem lenRange_false_iff (n : Nat) : lenRange n = false ↔ n ≤ 131072 := by
  unfold lenRange; rw [decide_eq_false_iff_not]; unfold Config.lbufBytes; omega

theorem cursorRange_false_iff (s : State) (n : Nat) :
    cursorRange s n = false ↔ s.cursor + s.demuxAdvance n ≤ 0xFFFFFFFF := by
  unfold cursorRange; rw [decide_eq_false_iff_not]; unfold Config.cursorMax; omega

theorem palShort_false_iff (s : State) : palShort s = false ↔ s.pcur.toNat + 32 ≤ s.srcLen.toNat := by
  unfold palShort; rw [decide_eq_false_iff_not]; unfold State.srcL State.cursor Config.palRawBytes; omega

/-- The geometry bound of a decoded frame: it fits FB, and its payload fits LBUF (R33, R34). -/
theorem frame_fits {s : State} (h : badDim s = false) :
    3 * (s.frameW * s.frameH) ≤ Config.fbBytes ∧ s.frameN ≤ Config.lbufBytes := by
  rw [badDim_false_iff] at h
  have : s.width.toNat * s.height.toNat ≤ 512 * 512 := Nat.mul_le_mul h.2.1 h.2.2.2
  simp only [State.frameN, State.frameW, State.frameH, Config.fbBytes, Config.lbufBytes]; omega

/-- A command whose checks pass and that decodes a frame has a legal geometry. -/
theorem badDim_of_errorOf_none {s : State} {i : Instr} (hi : i = .decbg ∨ i = .decspr ∨ i = .decode ∨ i = .frame)
    (h : errorOf i s = none) : badDim s = false := by
  rcases hi with rfl | rfl | rfl | rfl <;> rw [errorOf, firstError_eq_none_iff] at h <;>
    refine h (badDim s, .badDim) ?_ <;> simp only [bgChecks, sprChecks, formatChecks] <;> (try split) <;> simp

/-! ### Operand readings after the effects: the decoders read the same geometry and palette after a demultiplex -/

@[simp] theorem demuxInto_frameW (s : State) (n : Nat) : (demuxInto s n).frameW = s.frameW := rfl
@[simp] theorem demuxInto_frameH (s : State) (n : Nat) : (demuxInto s n).frameH = s.frameH := rfl
@[simp] theorem demuxInto_formatF (s : State) (n : Nat) : (demuxInto s n).formatF = s.formatF := rfl
@[simp] theorem finish_frameW (s : State) (c : BitVec 4) : (s.finish c).frameW = s.frameW := rfl
@[simp] theorem finish_frameH (s : State) (c : BitVec 4) : (s.finish c).frameH = s.frameH := rfl
@[simp] theorem finish_formatF (s : State) (c : BitVec 4) : (s.finish c).formatF = s.formatF := rfl
@[simp] theorem finish_lbufByte (s : State) (c : BitVec 4) (k : Nat) : (s.finish c).lbufByte k = s.lbufByte k := rfl
@[simp] theorem finish_fbByte (s : State) (c : BitVec 4) (k : Nat) : (s.finish c).fbByte k = s.fbByte k := rfl

/-! ### Buffers after the effects -/

/-- LBUF after a demultiplex of `n` bytes (R66). -/
theorem demuxInto_lbufByte (s : State) (n k : Nat) :
    (demuxInto s n).lbufByte k = if k < n then s.fetch (s.demuxAddr k) else s.lbufByte k := by
  unfold State.lbufByte
  rw [demuxInto_lbuf, demuxInto_epoch, Memory.byteAt_writeRange]
  by_cases h : k < n <;> simp [h]

/-- FB after the BG decoder. -/
theorem bgInto_fbByte (s : State) (p : Nat) :
    (bgInto s).fbByte p
      = if p < 3 * (s.frameW * s.frameH) then frameByte s.pal s.frameW s.bgIndexAt p else s.fbByte p := by
  unfold State.fbByte
  rw [bgInto_fb, bgInto_epoch, Memory.byteAt_writeRange]
  by_cases h : p < 3 * (s.frameW * s.frameH) <;> simp [h]

/-- FB after the SPR decoder. -/
theorem sprInto_fbByte (s : State) (p : Nat) :
    (sprInto s).fbByte p
      = if p < 3 * (s.frameW * s.frameH) then frameByte s.pal s.frameW s.sprIndexAt p else s.fbByte p := by
  unfold State.fbByte
  rw [sprInto_fb, sprInto_epoch, Memory.byteAt_writeRange]
  by_cases h : p < 3 * (s.frameW * s.frameH) <;> simp [h]

/-- Byte `c` of pixel (x, y) of a frame is channel `c` of its palette entry (R35). -/
theorem frameByte_pixel (pal : Vector Rgb 16) (w : Nat) (idxAt : Nat → Nat → BitVec 4) {x : Nat} (y : Nat)
    (hx : x < w) {c : Nat} (hc : c < 3) :
    frameByte pal w idxAt (3 * (y * w + x) + c) = (palEntry pal (idxAt x y)).channel c := by
  have h1 : (3 * (y * w + x) + c) / 3 = y * w + x := by omega
  have h2 : (3 * (y * w + x) + c) % 3 = c := by omega
  have h3 : (y * w + x) % w = x := by
    rw [Nat.mul_comm, Nat.mul_add_mod, Nat.mod_eq_of_lt hx]
  have h4 : (y * w + x) / w = y := by
    rw [Nat.mul_comm, Nat.mul_add_div (by omega), Nat.div_eq_of_lt hx, Nat.add_zero]
  rw [frameByte, h1, h2, h3, h4]

/-- PAL[i] after a load is newpal[i] (R62). -/
theorem newPal_get (s : State) (i : Fin 16) : (newPal s).get i = newPalEntry s i.val := by
  simp [newPal, Vector.get]; rfl

/-- A read below SRC_LEN is never absent, and one at or beyond it always is (R47). -/
theorem State.isShort_iff (s : State) (a : Nat) : s.isShort a = true ↔ s.srcL ≤ a := by
  unfold State.isShort State.memRead State.srcL
  split <;> simp <;> omega

/-- `fetch` in the terms of R66: the byte below SRC_LEN, 0 from there on. -/
theorem State.fetch_eq (s : State) (a : Nat) :
    s.fetch a = if a < s.srcL then (if s.srcTouched then Config.srcDraw s.draws a else s.srcByte a) else 0 := by
  unfold State.fetch State.memRead State.srcL
  split <;> simp

end Sys2Proof.Machine
end

