-- ==== Sys2Proof/Laws/Bus.lean ====
section
/-! SUPPORT. What a host access and a host turn can do, said once, and the decoder's and encoder's small lemmas. -/

namespace Sys2Proof.Machine

/-! ### Where an access lands -/

/-- An access that reaches LBUF stays inside it (R33, R40, R42). -/
theorem locate_lbuf {bytes off k : Nat} (h : locate bytes off = some (.lbuf k)) :
    off = 0x100000 + k ∧ k + bytes ≤ Config.lbufBytes ∧ (bytes = 1 ∨ bytes = 2 ∨ bytes = 4) := by
  have key : 0x100000 ≤ off ∧ off < 0x120000 ∧ laneAligned bytes off = true ∧ off - 0x100000 = k := by
    unfold locate at h
    split at h
    · split at h
      · cases hr : regAt off <;> simp [hr] at h
      · simp at h
    · split at h
      · simp at h
      · split at h
        · split at h <;> simp at h
        · split at h
          · simp at h
          · split at h
            · split at h
              · rename_i hl; simp only [Option.some.injEq, Place.lbuf.injEq] at h
                exact ⟨by omega, by omega, hl, h⟩
              · simp at h
            · split at h
              · simp at h
              · split at h
                · split at h <;> simp at h
                · simp at h
  obtain ⟨h1, h2, h3, h4⟩ := key
  simp only [laneAligned, decide_eq_true_eq] at h3
  refine ⟨by omega, ?_, h3.1⟩
  obtain ⟨hb | hb | hb, hm⟩ := h3 <;> subst hb <;> show k + _ ≤ 131072 <;> omega

/-! ### Writes -/

/-- A write while BUSY = 1 that is not to STATUS only sets OVR (R31). -/
theorem writeReg_busy {s : State} (hb : s.busy = true) {r : Reg} (hr : r ≠ .status) (v : Word) :
    writeReg s r v = s.dropWrite := by
  unfold writeReg; rw [if_pos (by simp [hb, hr])]

/-- A write to STATUS takes effect whether or not BUSY = 1 (R20). -/
theorem writeReg_status (s : State) (v : Word) :
    writeReg s .status v = { s with status := s.status.writeOneToClear v } := by
  simp [writeReg]

/-- What a register write can be. -/
theorem writeReg_cases (s : State) (r : Reg) (v : Word) :
    (s.busy = true ∧ r ≠ .status ∧ writeReg s r v = s.dropWrite)
      ∨ writeReg s r v = { s with status := s.status.writeOneToClear v }
      ∨ (s.busy = false ∧ r = .cmd ∧ writeReg s r v = s.accept v)
      ∨ (s.busy = false ∧ ∃ c wd h f p sl dl ch g se, writeReg s r v
          = { s with ctrl := c, width := wd, height := h, format := f, pcur := p, srcLen := sl, dmxLen := dl,
                     chunk := ch, gap := g, sector := se }) := by
  by_cases hr : r = .status
  · subst hr; exact .inr (.inl (writeReg_status s v))
  · cases hb : s.busy with
    | true => exact .inl ⟨rfl, hr, writeReg_busy hb hr v⟩
    | false =>
      by_cases hc : r = .cmd
      · subst hc; exact .inr (.inr (.inl ⟨rfl, rfl, by simp [writeReg, hb]⟩))
      · refine .inr (.inr (.inr ⟨rfl, ?_⟩))
        unfold writeReg
        rw [if_neg (by simp [hb])]
        cases r <;> first | exact absurd rfl hr | exact absurd rfl hc | exact ⟨_, _, _, _, _, _, _, _, _, _, rfl⟩

/-- What a bus write can be: a register write, or a write of LBUF bytes that stays inside LBUF (R43). -/
theorem busWrite_cases {s t : State} {bytes off : Nat} {v : Word} (h : busWrite s bytes off v = some t) :
    (∃ r, t = writeReg s r v)
      ∨ (∃ k, k + bytes ≤ Config.lbufBytes ∧ locate bytes off = some (.lbuf k) ∧ t = writeLbuf s k bytes v) := by
  unfold busWrite at h
  split at h
  · exact .inl ⟨_, (Option.some.inj h).symm⟩
  · rename_i k hl
    exact .inr ⟨k, (locate_lbuf hl).2.1, hl, (Option.some.inj h).symm⟩
  · cases h
  · cases h
  · cases h

/-- What an LBUF write can be (R31, R33). -/
theorem writeLbuf_cases (s : State) (k bytes : Nat) (v : Word) :
    (s.busy = true ∧ writeLbuf s k bytes v = s.dropWrite)
      ∨ (s.busy = false
          ∧ writeLbuf s k bytes v = { s with lbuf := Memory.writeRange s.lbuf k bytes (dataByte v) }) := by
  cases hb : s.busy with
  | true => exact .inl ⟨rfl, by simp [writeLbuf, hb]⟩
  | false => exact .inr ⟨rfl, by simp [writeLbuf, hb]⟩

/-! ### Turns and steps -/

/-- What a turn of the host that answers a next state can be. -/
theorem hostTurn_cases {s t : State} (h : hostTurn s = .next t) :
    (s.hostQueue = [] ∧ t = s)
      ∨ ∃ a rest, s.hostQueue = a :: rest ∧
        ((∃ b off v, a = .read b off ∧ t = { s with hostQueue := rest }.answerRead v)
          ∨ (∃ b off v u, a = .write b off v ∧ busWrite { s with hostQueue := rest } b off.toNat v = some u
              ∧ t = { u with response := .written })
          ∨ (a = .wait ∧ ∃ q r, t = { s with hostQueue := q, response := r })
          ∨ (∃ x b, a = .srcStore x b ∧ t = { s with hostQueue := rest }.srcStore x b)
          ∨ (a = .reset ∧ t = { s with hostQueue := rest }.resetInput)) := by
  unfold hostTurn at h
  cases hq : s.hostQueue with
  | nil => rw [hq] at h; exact .inl ⟨rfl, by simpa using h.symm⟩
  | cons a rest =>
    rw [hq] at h
    refine .inr ⟨a, rest, rfl, ?_⟩
    cases a with
    | read b off =>
      simp only [hostDo] at h
      split at h
      · exact .inl ⟨b, off, _, rfl, by simpa using h.symm⟩
      · cases h
    | write b off v =>
      simp only [hostDo] at h
      split at h
      · rename_i u hu
        exact .inr (.inl ⟨b, off, v, u, rfl, hu, by simpa using h.symm⟩)
      · cases h
    | wait => exact .inr (.inr (.inl ⟨rfl, _, _, by simpa [hostDo] using h.symm⟩))
    | srcStore x b => exact .inr (.inr (.inr (.inl ⟨x, b, rfl, by simpa [hostDo] using h.symm⟩)))
    | reset => exact .inr (.inr (.inr (.inr ⟨rfl, by simpa [hostDo] using h.symm⟩)))

/-- The step when a completion is due. -/
theorem step_due {s : State} {w : Word} (hl : s.latch = .pending w) (hd : s.delay = 0) : step s = engineStep w s := by
  unfold step; rw [hl, hd]

/-- The step while a command is pending and not due: a host turn, one fewer left. -/
theorem step_waiting {s : State} {w : Word} {d : Nat} (hl : s.latch = .pending w) (hd : s.delay = d + 1) :
    step s = hostTurn { s with delay := d } := by
  unfold step; rw [hl, hd]

/-- The step while idle: a host turn. -/
theorem step_idle {s : State} (hl : s.latch = .idle) : step s = hostTurn s := by
  unfold step; rw [hl]

/-- What a step can be. -/
theorem step_cases (s : State) :
    (∃ w, s.latch = .pending w ∧ s.delay = 0 ∧ step s = engineStep w s)
      ∨ (∃ w d, s.latch = .pending w ∧ s.delay = d + 1 ∧ step s = hostTurn { s with delay := d })
      ∨ (s.latch = .idle ∧ step s = hostTurn s) := by
  obtain hl | ⟨w, hl⟩ : s.latch = .idle ∨ ∃ w, s.latch = .pending w := by cases s.latch <;> simp
  · exact .inr (.inr ⟨hl, step_idle hl⟩)
  · obtain hd | ⟨d, hd⟩ : s.delay = 0 ∨ ∃ d, s.delay = d + 1 := by cases s.delay <;> simp
    · exact .inl ⟨w, hl, hd, step_due hl hd⟩
    · exact .inr (.inl ⟨w, d, hl, hd, step_waiting hl hd⟩)

/-- The engine's step is a completion: of the decoded command, or of ILLEGAL_CMD. -/
theorem engineStep_cases (w : Word) (s : State) :
    (∃ i, decode w = .ok i ∧ engineStep w s = exec i s)
      ∨ ((∃ e, decode w = .error e) ∧ engineStep w s = .next (s.finish CmdError.illegalCmd.code)) := by
  unfold engineStep
  cases h : decode w with
  | ok i => exact .inl ⟨i, rfl, rfl⟩
  | error e => exact .inr ⟨⟨e, rfl⟩, rfl⟩

/-- A step that answers a next state begins every longer run. -/
theorem runSteps_succ {s t : State} (h : step s = .next t) (k : Nat) : runSteps (k + 1) s = runSteps k t := by
  rw [runSteps, h]

end Sys2Proof.Machine
end

