-- ==== Sys2Proof/Laws/PerInstr.lean ====
section
/-! SUPPORT. Statements made per command: the encoding of each command is the legal word whose OP is its code (R55, R57, R58). -/

/-- The word of the command has MBZ zero and OP equal to the command's code. -/
def Sys2Proof.Laws.EncodeFields.Statement (i : Sys2Proof.Instr) : Prop :=
  Sys2Proof.mbzField (Sys2Proof.encode i) = 0 ∧ Sys2Proof.opField (Sys2Proof.encode i) = Sys2Proof.opOf i

theorem Sys2Proof.Laws.EncodeFields.nop : Sys2Proof.Laws.EncodeFields.Statement .nop := by unfold Statement; decide
theorem Sys2Proof.Laws.EncodeFields.ldpal : Sys2Proof.Laws.EncodeFields.Statement .ldpal := by unfold Statement; decide
theorem Sys2Proof.Laws.EncodeFields.demux : Sys2Proof.Laws.EncodeFields.Statement .demux := by unfold Statement; decide
theorem Sys2Proof.Laws.EncodeFields.decbg : Sys2Proof.Laws.EncodeFields.Statement .decbg := by unfold Statement; decide
theorem Sys2Proof.Laws.EncodeFields.decspr : Sys2Proof.Laws.EncodeFields.Statement .decspr := by unfold Statement; decide
theorem Sys2Proof.Laws.EncodeFields.decode : Sys2Proof.Laws.EncodeFields.Statement .decode := by unfold Statement; decide
theorem Sys2Proof.Laws.EncodeFields.frame : Sys2Proof.Laws.EncodeFields.Statement .frame := by unfold Statement; decide
end

