-- ==== Sys2Proof/Tests/Slice0.lean ====
section
/-! SUPPORT. Tests of the model on the vectors of 95_test_vectors.md (expected values are the spec's), the smoke test of well-formedness, and a witness for every statement that has hypotheses. -/

namespace Sys2Proof.Tests

open Sys2Proof Sys2Proof.Machine

/-! ### Helpers -/

/-- The next state of an outcome. -/
def nextOf : Host.Outcome State Fault Refusal → Option State
  | .next t => some t
  | .fault _ => none
  | .refused _ => none

/-- The state `s` with the word `w` latched and due. -/
def due (w : Word) (s : State) : State := { s with latch := .pending w, delay := 0 }

/-- Consecutive bytes from an address, as a memory. -/
def bytesFrom (a : Nat) (l : List Byte) : Memory := (List.range l.length).map (fun i => (a + i, l.getD i 0))

/-- PAL[i] = (i, i, i), as the decoder vectors of 95_test_vectors.md start. -/
def greyPal : Vector Rgb 16 :=
  ⟨((List.range 16).map (fun i => (Rgb.mk (BitVec.ofNat 8 i) (BitVec.ofNat 8 i) (BitVec.ofNat 8 i)))).toArray, by simp⟩

/-- STATUS and PCUR after a step. -/
def statusAndCursor (s : State) : Option (Word × Word) := (nextOf (step s)).map (fun t => (t.status.word t.busy, t.pcur))

/-! ### Encoding: words written out from 30_encoding.md R57 -/

theorem test_decode_nop : decode 0b00000000000000000000000000000000 = .ok .nop := by decide
theorem test_decode_ldpal : decode 0b00000000000000000000000000000001 = .ok .ldpal := by decide
theorem test_decode_demux : decode 0b00000000000000000000000000000010 = .ok .demux := by decide
theorem test_decode_decbg : decode 0b00000000000000000000000000000011 = .ok .decbg := by decide
theorem test_decode_decspr : decode 0b00000000000000000000000000000100 = .ok .decspr := by decide
theorem test_decode_decode : decode 0b00000000000000000000000000000101 = .ok .decode := by decide
theorem test_decode_frame : decode 0b00000000000000000000000000000110 = .ok .frame := by decide
/-- V-ERR-1, V-ERR-2, V-ERR-3. -/
theorem test_decode_illegal : decode 0x7 = .error .reservedOp ∧ decode 0xF = .error .reservedOp
    ∧ decode 0x10 = .error .mbzNotZero ∧ decode 0xFFFFFFFF = .error .mbzNotZero := by decide
theorem test_decode_bytes_short : decodeBytes [0x01, 0x00, 0x00] = none := by decide

/-! ### Well-formedness smoke: an ill-formed word for each check -/

theorem test_wf_mbz_refused : ¬ mbzClear 0x00000010 ∧ ¬ legalWord 0x00000010 ∧ ¬ legalWord 0x80000000 := by decide
theorem test_wf_op_refused : ¬ opDefined 0x00000007 ∧ ¬ legalWord 0x00000007 ∧ ¬ legalWord 0x0000000F := by decide
theorem test_wf_memory_refused : ¬ Memory.wf [(4, 0), (4, 1)] ∧ ¬ Memory.wf [(5, 0), (4, 1)]
    ∧ ¬ Memory.below Config.lbufBytes [(131072, 0)] := by decide
theorem test_wf_legal : legalWord 0x00000000 ∧ legalWord 0x00000006 ∧ Instr.frame.wf = true := by decide

/-! ### NOP and illegal words -/

/-- V-SEQ-1. -/
theorem test_nop : statusAndCursor (due 0x0 State.reset) = some (0x00000002, 0) := by decide
/-- P4 line 1 under outcome (a): the illegal word 0x17 after an overrun reads 0x0000010A. -/
theorem test_illegal_with_ovr :
    statusAndCursor (due 0x17 { State.reset with status := { done := false, short := false, ovr := true, err := 0 } })
      = some (0x0000010A, 0) := by decide

/-! ### LDPAL -/

/-- The palette of P3: colour 1 is lo 0x3F, colour 8 is lo 0xC0, hi 0x01; the last 32 bytes of SRC. -/
def palSrc : State :=
  { State.reset with srcLen := 32,
                     src := bytesFrom 0 ((List.replicate 32 (0 : Byte)).set 2 0x3F |>.set 16 0xC0 |>.set 17 0x01) }

/-- P3 lines 3 to 5. -/
theorem test_ldpal : (nextOf (step (due 0x1 palSrc))).map
    (fun t => ((t.pal.get 1).word, (t.pal.get 8).word, (t.pal.get 0).word, t.pcur, t.status.word t.busy))
      = some (0x00FF00FF, 0x0000FF00, 0, 32, 0x00000002) := by decide
/-- V-PAL-10. -/
theorem test_ldpal_short : statusAndCursor (due 0x1 { State.reset with pcur := 0x21, srcLen := 0x40 })
    = some (0x00000802, 0x21) := by decide
/-- V-PAL-1, V-PAL-3, V-PAL-4, V-PAL-5, V-PAL-8. -/
theorem test_palette_colours :
    paletteColour 0x5B 0x00 = Rgb.mk 109 36 109 ∧ paletteColour 0x80 0x00 = Rgb.mk 0 72 0
      ∧ paletteColour 0x00 0x01 = Rgb.mk 0 145 0 ∧ paletteColour 0x00 0xFE = Rgb.mk 0 0 0
      ∧ paletteColour 0xC0 0x01 = Rgb.mk 0 255 0 := by decide

/-! ### DEMUX -/

/-- C = 4, G = 2, S = 6 and SRC[a] = 0xA0 + a, as P2. -/
def smallGeometry : State :=
  { State.reset with chunk := 4, gap := 2, sector := 6, dmxLen := 10, srcLen := 12,
                     src := bytesFrom 0 ((List.range 64).map (fun i => BitVec.ofNat 8 (0xA0 + i))) }

/-- P2 lines 6 to 10 (V-DMX-4): a short read. -/
theorem test_demux_short : (nextOf (step (due 0x2 smallGeometry))).map
    (fun t => ((List.range 10).map t.lbufByte, t.pcur, t.status.word t.busy))
      = some ([0xA0, 0xA1, 0xA2, 0xA3, 0xA6, 0xA7, 0xA8, 0xA9, 0x00, 0x00], 18, 0x00000006) := by decide
/-- P2 lines 16 to 19: ZSKIP with a whole number of chunks. -/
theorem test_demux_zskip :
    statusAndCursor (due 0x2 { smallGeometry with ctrl := { ie := false, zskip := true }, srcLen := 16, dmxLen := 8 })
      = some (0x00000002, 18) := by decide

/-! ### DECBG -/

/-- V-BG-3's 32 bytes. -/
def tileBytes : List Byte :=
  [0x55, 0x33, 0x55, 0x33, 0x55, 0x33, 0x55, 0x33, 0x55, 0x33, 0x55, 0x33, 0x55, 0x33, 0x55, 0x33]
    ++ [0x0F, 0x00, 0x0F, 0xFF, 0x0F, 0x00, 0x0F, 0xFF, 0x0F, 0x00, 0x0F, 0xFF, 0x0F, 0x00, 0x0F, 0xFF]

def tileState : State := { State.reset with width := 8, height := 8, pal := greyPal, lbuf := bytesFrom 0 tileBytes }

/-- V-BG-3: rows 0 and 3; pixel (x, r) has index (8r + x) mod 16. -/
theorem test_decbg : (nextOf (step (due 0x3 tileState))).map
    (fun t => ((List.range 8).map (fun x => t.fbByte (3 * x)), (List.range 8).map (fun x => t.fbByte (3 * (3 * 8 + x) + 2))))
      = some ([0, 1, 2, 3, 4, 5, 6, 7], [8, 9, 10, 11, 12, 13, 14, 15]) := by decide
/-- V-BG-13: BAD_DIM comes before BAD_ALIGN. -/
theorem test_decbg_bad_dim : statusAndCursor (due 0x3 { State.reset with width := 520, height := 8 })
    = some (0x00000302, 0) := by decide

/-! ### DECSPR -/

/-- A 32 x 16 frame with LBUF all 0 except LBUF[0] = 0x80 (V-SPR-3) and LBUF[225] = 0x80 (V-SPR-4). -/
def cellState : State :=
  { State.reset with width := 32, height := 16, pal := greyPal,
                     lbuf := (List.range 256).map (fun k => (k, if k = 0 then 0x80 else if k = 225 then 0x80 else 0)) }

set_option maxRecDepth 10000 in
/-- V-SPR-3 and V-SPR-4: pixel (8, 0) has index 1 and pixel (16, 0) index 8; their neighbours 0. -/
theorem test_decspr : (nextOf (step (due 0x4 cellState))).map
    (fun t => [t.fbByte (3 * 7), t.fbByte (3 * 8), t.fbByte (3 * 15), t.fbByte (3 * 16), t.fbByte (3 * 17)])
      = some [0, 1, 0, 8, 0] := by decide
/-- V-SPR-9. -/
theorem test_decspr_bad_align : statusAndCursor (due 0x4 { State.reset with width := 16, height := 16 })
    = some (0x00000402, 0) := by decide

/-! ### DECODE and FRAME -/

set_option maxRecDepth 10000 in
/-- V-SEQ-10. -/
theorem test_decode_sprite : (nextOf (step (due 0x5 { cellState with format := 1 }))).map
    (fun t => (t.fbByte (3 * 8), t.fbByte (3 * 16))) = some (1, 8) := by decide
/-- V-SEQ-2: BAD_FORMAT comes before BAD_DIM. -/
theorem test_decode_bad_format : statusAndCursor (due 0x5 { State.reset with format := 2 }) = some (0x00000202, 0) := by
  decide

/-- P1 at line 11: the frame's payload at 0x940. -/
def frameState : State :=
  { State.reset with width := 16, height := 8, pcur := 0x940, srcLen := 0x1270, pal := greyPal,
                     src := bytesFrom 0x940 (tileBytes ++ List.replicate 32 (0xFF : Byte)) }

/-- P1 lines 11 to 14: pixel (5, 0) has index 5, (2, 1) index 10, (8, 0) index 15. -/
theorem test_frame : (nextOf (step (due 0x6 frameState))).map
    (fun t => (t.fbByte 15, t.fbByte (3 * (16 + 2)), t.fbByte 24, t.lbufByte 63, t.pcur, t.status.word t.busy))
      = some (5, 10, 15, 0xFF, 0x1270, 0x00000002) := by decide
/-- E-10, second row (C9): SRC_LEN cut inside tile 0 leaves indices 0..3 there and 0 in tile 1. -/
theorem test_frame_cut : (nextOf (step (due 0x6 { frameState with srcLen := 0x950 }))).map
    (fun t => (t.fbByte (3 * 6), t.fbByte (3 * (16 + 7)), t.fbByte 24, t.pcur, t.status.word t.busy))
      = some (2, 3, 0, 0x1270, 0x00000006) := by decide

/-! ### The host's side -/

/-- V-ERR-12. -/
theorem test_reset_reads : (busRead State.reset 4 0x00, busRead State.reset 4 0x08, busRead State.reset 4 0x24,
    busRead State.reset 4 0x28, busRead State.reset 4 0x2C, busRead State.reset 4 0x40, busRead State.reset 4 0x04)
      = (some 0, some 0, some 0x800, some 0x130, some 0x930, some 0, some 0) := by decide
/-- V-ERR-13 to V-ERR-17. -/
theorem test_bus_errors : busRead State.reset 2 0x08 = none ∧ busWrite State.reset 4 0x40 0 = none
    ∧ busWrite State.reset 1 0x200000 0 = none ∧ busRead State.reset 4 0x30 = none
    ∧ busRead State.reset 4 0x100002 = none := by decide
/-- V-ERR-18: the bus error comes before the BUSY drop. -/
theorem test_bus_error_before_drop : busWrite (due 0 State.reset) 2 0x18 0 = none := by decide
/-- V-ERR-6 and V-ERR-7. -/
theorem test_status_w1c :
    let st : Status := { done := true, short := true, ovr := true, err := 1 }
    (st.writeOneToClear 0x4).word false = 0x0000010A ∧ (st.writeOneToClear 0xFFFFFFFF).word false = 0x00000100 := by
  decide
/-- V-ERR-4 outcome (a): a WIDTH write while BUSY = 1 is dropped and sets OVR. -/
theorem test_busy_drop : (busWrite (due 0 State.reset) 4 0x0C 16).map (fun t => (t.width, t.status.ovr)) = some (0, true) := by
  decide
/-- V-ERR-19. -/
theorem test_little_endian :
    let s : State := { State.reset with lbuf := bytesFrom 0 [0x11, 0x22, 0x33, 0x44] }
    busRead s 4 0x100000 = some 0x44332211 ∧ busRead s 2 0x100002 = some 0x4433 := by decide
/-- V-ERR-21 and V-ERR-22. -/
theorem test_reserved_bits : ((busWrite State.reset 4 0x0C 0x12345678).bind (busRead · 4 0x0C),
    (busWrite State.reset 4 0x14 0x1FF).bind (busRead · 4 0x14)) = (some 0x00005678, some 0x000000FF) := by decide
/-- The encodings of P1 lines 1, 5, 11 and P3 lines 6, 13 (R59). -/
theorem test_script : scriptWr .srcLen 0x1270 = .write 4 0x00001C 0x00001270 ∧ scriptRd .status = .read 4 0x000008
    ∧ scriptCmd .frame = .write 4 0x000004 0x00000006 ∧ scriptClr = .write 4 0x000008 0x0000000E
    ∧ scriptWrb 225 0x80 = .write 1 0x1000E1 0x80 ∧ scriptRdPal 15 = .read 4 0x00007C := by decide
/-- The first step after withFetchWord runs the word: from reset a FRAME ends in BAD_DIM. -/
theorem test_withFetchWord : statusAndCursor (State.reset.withFetchWord 32 0x6) = some (0x00000302, 0) := by decide

/-! ### Witnesses: states that meet the hypotheses of the statements, clause by clause -/

/-- A pending state whose completion is one turn away, with a host action waiting. -/
def waiting (a : HostAction) : State := { State.reset with latch := .pending 0x2, delay := 1, hostQueue := [a] }

theorem witness_IllegalWordsEndWithErr1 : State.reset.latch = .idle
    ∧ ((0x00000010 : Word).extractLsb' 4 28 ≠ 0 ∧ (due 0x10 State.reset).latch = .pending 0x10 ∧ (due 0x10 State.reset).delay = 0)
    ∧ (7 ≤ ((0x00000007 : Word).extractLsb' 0 4).toNat ∧ (due 0x7 State.reset).latch = .pending 0x7) := by decide
theorem witness_DueStepRunsDecodedCommand :
    (due 0x6 State.reset).latch = .pending 0x6 ∧ (due 0x6 State.reset).delay = 0 ∧ decode 0x6 = .ok .frame := by decide
theorem witness_HostTurnsOtherwise :
    ((waiting .wait).latch = .pending 0x2 ∧ (waiting .wait).delay = 0 + 1)
      ∧ State.reset.latch = .idle ∧ State.reset.hostQueue = [] := by decide
theorem witness_ResetInputAbandonsCommand :
    (waiting .reset).hostQueue = .reset :: [] ∧ 0 < (waiting .reset).delay
      ∧ ({ State.reset with hostQueue := [.reset] } : State).latch = .idle := by decide
theorem witness_StepKeepsInvariant : State.reset.Inv ∧ ∃ t, step State.reset = .next t :=
  ⟨by constructor <;> simp [State.reset, State.busy], _, rfl⟩
theorem witness_CmdWriteAcceptsWord : State.reset.latch = .idle ∧ (due 0x0 State.reset).latch = .pending 0x0 := by decide
theorem witness_EveryWordCompletes :
    (due 0xFFFFFFFF State.reset).latch = .pending 0xFFFFFFFF ∧ (due 0xFFFFFFFF State.reset).delay = 0 := by decide
theorem witness_FailedCommandChangesOnlyStatus :
    ∃ t, (due 0x3 State.reset).latch = .pending 0x3 ∧ (due 0x3 State.reset).delay = 0
      ∧ step (due 0x3 State.reset) = .next t ∧ t.status.err ≠ 0 := ⟨_, rfl, rfl, rfl, by decide⟩
theorem witness_CompletionKeepsSrcAndControls : ∃ t, engineStep 0x1 palSrc = .next t := ⟨_, rfl⟩
theorem witness_CommandsWriteOnlyTheirOwn : ∃ t u, exec .nop State.reset = .next t ∧ exec .demux smallGeometry = .next u :=
  ⟨_, _, rfl, rfl⟩
theorem witness_PalAndFbChangeOnlyByTheirCommands :
    (∃ t, step (due 0x1 palSrc) = .next t ∧ t.pal ≠ (due 0x1 palSrc).pal)
      ∧ (∃ t, step (due 0x3 tileState) = .next t ∧ t.fb ≠ (due 0x3 tileState).fb)
      ∧ ∃ t, step { tileState with hostQueue := [.reset] } = .next t ∧ t.pal ≠ tileState.pal :=
  ⟨⟨_, rfl, by decide⟩, ⟨_, rfl, by decide⟩, _, rfl, by decide⟩
theorem witness_OnlyResetCancels :
    ∃ t u, (waiting .wait).latch = .pending 0x2 ∧ (waiting .wait).delay = 0 + 1 ∧ step (waiting .wait) = .next t
      ∧ step (waiting .reset) = .next u := ⟨_, _, rfl, rfl, rfl, rfl⟩
theorem witness_PendingCommandCompletes : (waiting .wait).latch = .pending 0x2 ∧ (waiting .wait).hostSafe
    ∧ HostAction.reset ∉ (waiting .wait).hostQueue := ⟨rfl, by unfold State.hostSafe; decide, by decide⟩
/-- V-PAL-13: the last 32 bytes of the largest SRC; one byte more is PAL_SHORT. -/
theorem witness_LdpalLoadsPalette :
    let s : State := { State.reset with pcur := 0xFFFFFFDF, srcLen := 0xFFFFFFFF }
    let s' : State := { State.reset with pcur := 0xFFFFFFE0, srcLen := 0xFFFFFFFF }
    s.pcur.toNat + 32 ≤ s.srcLen.toNat ∧ s'.srcLen.toNat < s'.pcur.toNat + 32 := by decide
/-- V-DMX-15: the largest legal length. -/
theorem witness_DemuxResult :
    let s : State := { State.reset with dmxLen := 131072 }
    ConfigOk s ∧ s.dmxLen.toNat ≤ 131072 ∧ cursorAfter s s.dmxLen.toNat ≤ 0xFFFFFFFF := by
  unfold ConfigOk cursorAfter; decide
/-- V-DMX-13, V-DMX-14, V-DMX-16. -/
theorem witness_DemuxChecksInOrder :
    ¬ ConfigOk { State.reset with sector := 0x7FF }
      ∧ (ConfigOk State.reset ∧ 131072 < ({ State.reset with dmxLen := 131073 } : State).dmxLen.toNat)
      ∧ (let s : State := { State.reset with dmxLen := 64, pcur := 0xFFFFF800 }
         ConfigOk s ∧ s.dmxLen.toNat ≤ 131072 ∧ 0xFFFFFFFF < cursorAfter s s.dmxLen.toNat) := by
  unfold ConfigOk cursorAfter; decide
/-- V-DMX-4: byte 8 is the first that is zero-filled, byte 9 the last. -/
theorem witness_ZeroFillIsATail :
    ConfigOk smallGeometry ∧ smallGeometry.dmxLen.toNat ≤ 131072
      ∧ cursorAfter smallGeometry smallGeometry.dmxLen.toNat ≤ 0xFFFFFFFF ∧ (3 : Nat) < 4
      ∧ (∃ t, exec .demux smallGeometry = .next t) ∧ smallGeometry.srcLen.toNat ≤ addressOf smallGeometry 8
      ∧ (8 : Nat) ≤ 9 ∧ 9 < smallGeometry.dmxLen.toNat := by
  unfold ConfigOk cursorAfter addressOf
  exact ⟨by decide, by decide, by decide, by decide, ⟨_, rfl⟩, by decide, by decide, by decide⟩
/-- With a chunk as large as its sector, and with the smallest chunk. -/
theorem witness_DemuxLoopMeetsClosedForms :
    ConfigOk { State.reset with chunk := 0x930 } ∧ ConfigOk { State.reset with chunk := 1 } := by
  unfold ConfigOk; decide
/-- P1 for FRAME; P2's geometry, C + G = S, for DEMUX with a partial chunk, and with whole chunks and ZSKIP. -/
theorem witness_AdvanceByWholeSectors :
    (∃ t, exec .frame frameState = .next t ∧ t.status.err = 0
      ∧ frameState.chunk.toNat + frameState.gap.toNat = frameState.sector.toNat)
      ∧ (∃ t, exec .demux smallGeometry = .next t ∧ t.status.err = 0
        ∧ smallGeometry.chunk.toNat + smallGeometry.gap.toNat = smallGeometry.sector.toNat)
      ∧ (let s : State := { smallGeometry with ctrl := { ie := false, zskip := true }, dmxLen := 8 }
         ∃ t, exec .demux s = .next t ∧ t.status.err = 0 ∧ s.chunk.toNat + s.gap.toNat = s.sector.toNat) :=
  ⟨⟨_, rfl, by decide, by decide⟩, ⟨_, rfl, by decide, by decide⟩, _, rfl, by decide, by decide⟩
theorem witness_TileIndexBits : (0 : Nat) < 8 ∧ (7 : Nat) < 8 := by decide
/-- E-2: 512 x 512 is accepted, 513 is not; 1 x 1 is in range but not aligned. -/
theorem witness_DecbgDecodesTiles :
    (DimOk { State.reset with width := 512, height := 512 } ∧ AlignBg { State.reset with width := 512, height := 512 })
      ∧ ¬ DimOk { State.reset with width := 513, height := 8 }
      ∧ (DimOk { State.reset with width := 1, height := 1 } ∧ ¬ AlignBg { State.reset with width := 1, height := 1 }) := by
  unfold DimOk AlignBg; decide
theorem witness_DecbgMeetsStoreLoop : DimOk tileState ∧ AlignBg tileState := by unfold DimOk AlignBg; decide
theorem witness_CellIndexBits : (0 : Nat) < 16 ∧ (15 : Nat) < 16 := by decide
/-- V-SPR-8, V-SPR-13 and V-SPR-10. -/
theorem witness_DecsprDecodesCells :
    (DimOk { State.reset with width := 512, height := 512 } ∧ AlignSpr { State.reset with width := 512, height := 512 })
      ∧ ¬ DimOk { State.reset with width := 544, height := 16 }
      ∧ (DimOk { State.reset with width := 48, height := 16 } ∧ ¬ AlignSpr { State.reset with width := 48, height := 16 }) := by
  unfold DimOk AlignSpr; decide
theorem witness_DecsprMeetsStoreLoop : DimOk cellState ∧ AlignSpr cellState := by unfold DimOk AlignSpr; decide
/-- The last cell and pixel of a 512 x 512 frame, which are the same pixel. -/
theorem witness_CellsTileFrameOnce : 512 % 32 = 0 ∧ 512 % 16 = 0 ∧ 15 < 512 / 32 ∧ 63 < 512 / 8 ∧ (15 : Nat) < 16
    ∧ (511 : Nat) < 512 ∧ 511 = cellU 63 15 + 15 ∧ 511 = cellV 63 + 15 := by decide
theorem witness_DecodeByFormat :
    1 < ({ State.reset with format := 2 } : State).format.toNat
      ∧ (tileState.format = 0 ∧ DimOk tileState ∧ AlignBg tileState)
      ∧ (let s : State := { cellState with format := 1 }; s.format = 1 ∧ DimOk s ∧ AlignSpr s) := by
  unfold DimOk AlignBg AlignSpr; decide
/-- P1 for BG; V-SEQ-4 for SPR. -/
theorem witness_FrameResult :
    (DimOk frameState ∧ ConfigOk frameState ∧ cursorAfter frameState (frameState.width.toNat * frameState.height.toNat / 2) ≤ 0xFFFFFFFF
        ∧ (frameState.format = 0 ∧ AlignBg frameState))
      ∧ (let s : State := { cellState with format := 1 }
         DimOk s ∧ ConfigOk s ∧ cursorAfter s (s.width.toNat * s.height.toNat / 2) ≤ 0xFFFFFFFF ∧ (s.format = 1 ∧ AlignSpr s)) := by
  unfold DimOk ConfigOk AlignBg AlignSpr cursorAfter; decide
/-- V-SEQ-3, V-SEQ-7, V-SEQ-8, V-SEQ-6, V-SEQ-9. -/
theorem witness_FrameChecksInOrder :
    1 < ({ tileState with format := 0x80 } : State).format.toNat
      ∧ (tileState.format.toNat ≤ 1 ∧ ¬ DimOk { tileState with width := 0 })
      ∧ (let s : State := { tileState with format := 1, width := 16, height := 16 }; DimOk s ∧ (s.format = 1 ∧ ¬ AlignSpr s))
      ∧ (let s : State := { tileState with chunk := 0 }; DimOk s ∧ (s.format = 0 ∧ AlignBg s) ∧ ¬ ConfigOk s)
      ∧ (let s : State := { tileState with pcur := 0xFFFFF800 }
         DimOk s ∧ (s.format = 0 ∧ AlignBg s) ∧ ConfigOk s
           ∧ 0xFFFFFFFF < cursorAfter s (s.width.toNat * s.height.toNat / 2)) := by
  unfold DimOk ConfigOk AlignBg AlignSpr cursorAfter; decide
theorem witness_FrameIsDemuxThenDecode : ∃ t, exec .frame frameState = .next t ∧ t.status.err = 0 := ⟨_, rfl, by decide⟩
/-- E-10, first row: tile 1 lies wholly in the tail; and V-SEQ-5's case for SPR. -/
theorem witness_UnreadTilesShowColourZero :
    (let s : State := { frameState with srcLen := 0x960 }
     (∃ t, exec .frame s = .next t ∧ t.status.err = 0) ∧ s.format = 0 ∧ 1 < s.width.toNat / 8 ∧ 0 < s.height.toNat / 8
       ∧ s.srcLen.toNat ≤ addressOf s (32 * (0 * (s.width.toNat / 8) + 1)))
      ∧ (let s : State := { cellState with format := 1 }
         (∃ t, exec .frame s = .next t ∧ t.status.err = 0) ∧ s.format = 1 ∧ 0 < s.width.toNat / 32 ∧ 1 < s.height.toNat / 8
           ∧ s.srcLen.toNat ≤ addressOf s (128 * (0 * (s.height.toNat / 8) + 1))) := by
  unfold addressOf
  exact ⟨⟨⟨_, rfl, by decide⟩, by decide⟩, ⟨_, rfl, by decide⟩, by decide⟩
theorem witness_RegisterReads : State.reset.latch = .idle := by decide
theorem witness_PalRegistersReadOnly : State.reset.latch = .idle := by decide
theorem witness_IdleRegisterWrites : State.reset.latch = .idle := by decide
theorem witness_BusyWritesDropped :
    (∃ t, (waiting .wait).busy = true ∧ (0x2C : Nat) ≠ 0x08 ∧ busWrite (waiting .wait) 4 0x2C 7 = some t)
      ∧ (∃ t, (waiting .wait).busy = true ∧ hostTurn (waiting .wait) = .next t ∧ t.busy = true)
      ∧ ∃ s : State, s.busy = true ∧ s.status.ovr = true :=
  ⟨⟨_, rfl, by decide, rfl⟩, ⟨_, rfl, rfl, rfl⟩,
    { due 0 State.reset with status := { done := false, short := false, ovr := true, err := 0 } }, rfl, rfl⟩
/-- V-ERR-13 and V-ERR-14 as a host's next access; V-ERR-18 while a command is pending. -/
theorem witness_BusErrorCases :
    (let s : State := { State.reset with hostQueue := [.read 2 0x08] }
     s.latch = .idle ∧ s.hostQueue = .read 2 0x08 :: [] ∧ busRead s 2 (0x08 : Offset).toNat = none)
      ∧ (let s : State := { State.reset with hostQueue := [.write 4 0x40 1] }
         s.latch = .idle ∧ s.hostQueue = .write 4 0x40 1 :: [] ∧ busWrite s 4 (0x40 : Offset).toNat 1 = none)
      ∧ (let s := waiting (.write 2 0x18 0)
         s.latch ≠ .idle ∧ 0 < s.delay ∧ s.hostQueue = .write 2 0x18 0 :: []
           ∧ busWrite s 2 (0x18 : Offset).toNat 0 = none) := by decide
/-- The last aligned access of each width in each window. -/
theorem witness_WindowsLittleEndian : State.reset.latch = .idle ∧ (131071 : Nat) < 131072
    ∧ (131070 % 2 = 0 ∧ (131070 : Nat) < 131072) ∧ (131068 % 4 = 0 ∧ (131068 : Nat) < 131072)
    ∧ (786431 : Nat) < 786432 ∧ (786430 % 2 = 0 ∧ (786430 : Nat) < 786432) ∧ (786428 % 4 = 0 ∧ (786428 : Nat) < 786432) := by
  decide
theorem witness_HostReadsHaveNoSideEffect :
    (∃ t, ({ State.reset with hostQueue := [.read 4 0x24] } : State).hostQueue = .read 4 0x24 :: []
      ∧ hostTurn { State.reset with hostQueue := [.read 4 0x24] } = .next t)
      ∧ (∃ t, (waiting .wait).hostQueue = .wait :: [] ∧ hostTurn (waiting .wait) = .next t ∧ (waiting .wait).busy = true)
      ∧ ∃ t, hostTurn { State.reset with hostQueue := [.wait] } = .next t ∧ State.reset.busy = false :=
  ⟨⟨_, rfl, rfl⟩, ⟨_, rfl, rfl, rfl⟩, _, rfl, rfl⟩
/-- The last aligned access of each width in each window. -/
theorem witness_BusyReadsAreFree : (due 0 State.reset).busy = true ∧ (131071 : Nat) < 131072 ∧ (786431 : Nat) < 786432
    ∧ (131070 % 2 = 0 ∧ (131070 : Nat) < 131072) ∧ (786430 % 2 = 0 ∧ (786430 : Nat) < 786432)
    ∧ (131068 % 4 = 0 ∧ (131068 : Nat) < 131072) ∧ (786428 % 4 = 0 ∧ (786428 : Nat) < 786432) := by
  decide
theorem witness_IrqLevel :
    (∃ t, exec .nop State.reset = .next t)
      ∧ (∃ t, (0x2 : Word).getLsbD 1 = true ∧ busWrite State.reset 4 0x08 0x2 = some t)
      ∧ (∃ t, State.reset.latch = .idle ∧ busWrite State.reset 4 0x04 0 = some t)
      ∧ ∃ t, State.reset.latch = .idle ∧ (0x0 : Word).getLsbD 0 = false ∧ busWrite State.reset 4 0x00 0x0 = some t :=
  ⟨⟨_, rfl⟩, ⟨_, by decide, rfl⟩, ⟨_, rfl, rfl⟩, _, rfl, by decide, rfl⟩
theorem witness_SrcReads :
    smallGeometry.srcLen.toNat ≤ 12
      ∧ (11 < smallGeometry.srcLen.toNat ∧ smallGeometry.srcTouched = false)
      ∧ (let s : State := { smallGeometry with latch := .pending 0x2, delay := 1, hostQueue := [.srcStore 11 0x55] }
         s.hostQueue = .srcStore 11 0x55 :: [] ∧ s.busy = true ∧ (11 : Word).toNat < s.srcLen.toNat ∧ 0 < s.srcLen.toNat)
      ∧ (let s : State := { smallGeometry with latch := .pending 0x2, delay := 1, hostQueue := [.srcStore 12 0x55] }
         s.hostQueue = .srcStore 12 0x55 :: [] ∧ s.busy = true ∧ s.srcLen.toNat ≤ (12 : Word).toNat)
      ∧ (let s : State := { smallGeometry with hostQueue := [.srcStore 0 0x55] }
         s.hostQueue = .srcStore 0 0x55 :: [] ∧ s.busy = false) := by
  decide
theorem witness_WindowAtAnyBase : Config.hvdecBase + 0x400000 ≤ Config.hvdecBase + 0x400000 := Nat.le_refl _

end Sys2Proof.Tests
end

/-! The 4 MiB window of R39 at the OPEN base HVDEC_BASE (R7; log 2). -/

namespace Sys2Proof.Machine

/-- A 22-bit offset is below 4 MiB, so its host address lies in the window, and subtracting the base gives it back. -/
@[simp] theorem windowOffset_hostAddress (off : Offset) : windowOffset (hostAddress off) = some off := by
  have inWindow : Config.hvdecBase ≤ hostAddress off ∧ hostAddress off < Config.hvdecBase + 0x400000 :=
    ⟨Nat.le_add_right .., Nat.add_lt_add_left off.isLt _⟩
  rw [windowOffset, if_pos inWindow, hostAddress, Nat.add_sub_cancel_left, BitVec.ofNat_toNat, BitVec.setWidth_eq]

/-- Exactly the addresses below the base or past the window select no offset. -/
theorem windowOffset_eq_none_iff (addr : Nat) :
    windowOffset addr = none ↔ addr < Config.hvdecBase ∨ Config.hvdecBase + 0x400000 ≤ addr := by
  unfold windowOffset
  split
  case isTrue inWindow => simp only [reduceCtorEq, false_iff]; omega
  case isFalse outside => simp only [true_iff]; omega

/-- Settles O50: the host address of an offset selects that offset, and `none` is exactly an address outside. -/
theorem windowAtAnyBase : Obligations.WindowAtAnyBase :=
  ⟨windowOffset_hostAddress, fun addr => (windowOffset_eq_none_iff addr).mpr⟩

end Sys2Proof.Machine

/-! ### Every step keeps the invariant (10_state.md R33, R34; 20_memory.md R39; 60_exceptions.md R87 to R90) -/

namespace Sys2Proof.Machine

/-! ### The effects of the commands keep the invariant -/

theorem State.Inv.palInto {s : State} (h : s.Inv) : (palInto s).Inv := { h with }

/-- A demultiplex of at most LBUF_BYTES bytes stays inside LBUF (R33, R66). -/
theorem State.Inv.demuxInto {s : State} (h : s.Inv) {n : Nat} (hn : n ≤ Config.lbufBytes) : (demuxInto s n).Inv :=
  { h with
    lbuf_wf := Memory.wf_writeRange h.lbuf_wf ..
    lbuf_below := Memory.below_writeRange h.lbuf_below (by omega) _ }

/-- A frame of legal dimensions stays inside FB (R34, R76). -/
theorem State.Inv.bgInto {s : State} (h : s.Inv) (hdim : badDim s = false) : (bgInto s).Inv :=
  { h with
    fb_wf := Memory.wf_writeRange h.fb_wf ..
    fb_below := Memory.below_writeRange h.fb_below (by have := (frame_fits hdim).1; omega) _ }

/-- A frame of legal dimensions stays inside FB (R34, R81). -/
theorem State.Inv.sprInto {s : State} (h : s.Inv) (hdim : badDim s = false) : (sprInto s).Inv :=
  { h with
    fb_wf := Memory.wf_writeRange h.fb_wf ..
    fb_below := Memory.below_writeRange h.fb_below (by have := (frame_fits hdim).1; omega) _ }

theorem State.Inv.formatInto {s : State} (h : s.Inv) (hdim : badDim s = false) : (formatInto s).Inv := by
  rcases formatInto_cases s with he | he <;> rw [he]
  · exact h.bgInto hdim
  · exact h.sprInto hdim

/-- The checks of a command are what keeps its effects inside the buffers (R91). -/
theorem State.Inv.effectOf {s : State} (h : s.Inv) {i : Instr} (he : errorOf i s = none) : (effectOf i s).Inv := by
  cases i with
  | nop => exact h
  | ldpal => exact h.palInto
  | demux =>
    have hlen : lenRange s.demuxN = false :=
      (firstError_eq_none_iff _).mp he (lenRange s.demuxN, .lenRange) (by simp)
    exact h.demuxInto ((lenRange_false_iff _).mp hlen)
  | decbg => exact h.bgInto (badDim_of_errorOf_none (by simp) he)
  | decspr => exact h.sprInto (badDim_of_errorOf_none (by simp) he)
  | decode => exact h.formatInto (badDim_of_errorOf_none (by simp) he)
  | frame =>
    have hdim : badDim s = false := badDim_of_errorOf_none (by simp) he
    exact (h.demuxInto (frame_fits hdim).2).formatInto hdim

/-- All that the effects of a command can change: PAL, LBUF, FB, PCUR and SHORT (the writes column of R56). -/
theorem effectOf_frame (i : Instr) (s : State) : ∃ pal lbuf fb pcur short, effectOf i s
    = { s with pal := pal, lbuf := lbuf, fb := fb, pcur := pcur, status := { s.status with short := short } } := by
  obtain he | he | ⟨n, he⟩ | he | he | ⟨n, he⟩ | ⟨n, he⟩ := effectOf_cases i s <;>
    rw [he] <;> exact ⟨_, _, _, _, _, rfl⟩

/-! ### The completion step -/

/-- The end of a due command leaves an idle latch with nothing left over (R88). -/
theorem State.Inv.finish {s : State} (h : s.Inv) (hd : s.delay = 0) {code : BitVec 4} (hc : code.toNat ≤ 8) :
    (s.finish code).Inv :=
  { h with
    err_defined := hc
    pending_clear := fun hb => by simp at hb
    idle_clear := fun _ => ⟨hd, rfl⟩ }

theorem exec_keeps_inv {i : Instr} {s t : State} (h : s.Inv) (hd : s.delay = 0) (hx : exec i s = .next t) : t.Inv := by
  obtain ⟨e, -, rfl, -⟩ | ⟨he, rfl, -⟩ := exec_cases hx
  · exact h.finish hd e.code_le
  · have hd' : (effectOf i s).delay = 0 := by
      obtain ⟨_, _, _, _, _, heq⟩ := effectOf_frame i s
      rw [heq]; exact hd
    exact (h.effectOf he).finish hd' (by decide)

theorem engineStep_keeps_inv {w : Word} {s t : State} (h : s.Inv) (hd : s.delay = 0) (hx : engineStep w s = .next t) :
    t.Inv := by
  obtain ⟨i, -, hi⟩ | ⟨-, hill⟩ := engineStep_cases w s
  · exact exec_keeps_inv h hd (hi ▸ hx)
  · obtain rfl : s.finish _ = t := Host.Outcome.next.inj (hill ▸ hx)
    exact h.finish hd (CmdError.code_le _)

/-! ### The turn of the host -/

theorem State.Inv.dropWrite {s : State} (h : s.Inv) : s.dropWrite.Inv := { h with }

/-- A write of STATUS sets no bit of it (R20). -/
theorem State.Inv.writeOneToClear {s : State} (h : s.Inv) (v : Word) :
    State.Inv { s with status := s.status.writeOneToClear v } :=
  { h with
    pending_clear := fun hb => by
      obtain ⟨hdone, herr⟩ := h.pending_clear hb
      exact ⟨by simp [Status.writeOneToClear, hdone], herr⟩ }

theorem State.Inv.accept {s : State} (h : s.Inv) (w : Word) : (s.accept w).Inv :=
  { h with
    err_defined := by simp
    pending_clear := fun _ => ⟨rfl, rfl⟩
    idle_clear := fun hb => by simp at hb }

theorem State.Inv.writeReg {s : State} (h : s.Inv) (r : Reg) (v : Word) : (writeReg s r v).Inv := by
  obtain ⟨-, -, he⟩ | he | ⟨-, -, he⟩ | ⟨-, _, _, _, _, _, _, _, _, _, _, he⟩ := writeReg_cases s r v <;> rw [he]
  · exact h.dropWrite
  · exact h.writeOneToClear v
  · exact h.accept v
  · exact { h with }

theorem State.Inv.writeLbuf {s : State} (h : s.Inv) {k bytes : Nat} (hk : k + bytes ≤ Config.lbufBytes) (v : Word) :
    (writeLbuf s k bytes v).Inv := by
  obtain ⟨-, he⟩ | ⟨-, he⟩ := writeLbuf_cases s k bytes v <;> rw [he]
  · exact h.dropWrite
  · exact { h with
      lbuf_wf := Memory.wf_writeRange h.lbuf_wf ..
      lbuf_below := Memory.below_writeRange h.lbuf_below hk _ }

theorem busWrite_keeps_inv {s t : State} {bytes off : Nat} {v : Word} (h : s.Inv)
    (hw : busWrite s bytes off v = some t) : t.Inv := by
  obtain ⟨r, rfl⟩ | ⟨k, hk, -, rfl⟩ := busWrite_cases hw
  · exact h.writeReg r v
  · exact h.writeLbuf hk v

/-- A store of the host has a 32-bit address (R39), and is noted only under a pending command (R107). -/
theorem State.Inv.srcStore {s : State} (h : s.Inv) (a : Word) (b : Byte) : (s.srcStore a b).Inv :=
  { h with
    src_wf := Memory.wf_writeRange h.src_wf ..
    src_below := Memory.below_writeRange h.src_below (Nat.succ_le_of_lt a.isLt) _
    idle_clear := fun hb => by
      rw [State.srcStore_busy] at hb
      obtain ⟨hd, ht⟩ := h.idle_clear hb
      exact ⟨hd, by simp [hb, ht]⟩ }

/-- Settles O8: nothing is listed in a memory, and no command has left anything. -/
theorem resetHasInvariant : Obligations.ResetHasInvariant where
  lbuf_wf := .nil
  lbuf_below := by simp [State.reset]
  fb_wf := .nil
  fb_below := by simp [State.reset]
  src_wf := .nil
  src_below := by simp [State.reset]
  err_defined := by decide
  pending_clear := by decide
  idle_clear := by decide

/-- The reset input keeps only SRC, which has the invariant, of what the invariant speaks of (R102). -/
theorem State.Inv.resetInput {s : State} (h : s.Inv) : s.resetInput.Inv :=
  { resetHasInvariant with
    src_wf := h.src_wf
    src_below := h.src_below }

theorem hostTurn_keeps_inv {s t : State} (h : s.Inv) (ht : hostTurn s = .next t) : t.Inv := by
  obtain ⟨-, rfl⟩ | ⟨a, rest, -, hcase⟩ := hostTurn_cases ht
  · exact h
  · have hpop : State.Inv { s with hostQueue := rest } := { h with }
    obtain ⟨_, _, v, -, rfl⟩ | ⟨_, _, _, u, -, hw, rfl⟩ | ⟨-, _, _, rfl⟩ | ⟨x, b, -, rfl⟩ | ⟨-, rfl⟩ := hcase
    · exact { hpop with }
    · exact { busWrite_keeps_inv hpop hw with }
    · exact { h with }
    · exact hpop.srcStore x b
    · exact hpop.resetInput

/-- Counting down under a pending command: the clause on the delay speaks of the idle latch only (log 1). -/
theorem State.Inv.countdown {s : State} (h : s.Inv) (hb : s.busy = true) (d : Nat) : State.Inv { s with delay := d } :=
  { h with idle_clear := fun hidle => absurd (hb.symm.trans hidle) (by decide) }

/-- Settles O9: a due step is a completion, and any other step a turn of the host; both keep the invariant. -/
theorem stepKeepsInvariant : Obligations.StepKeepsInvariant := by
  intro s t h hstep
  obtain ⟨w, -, hd, he⟩ | ⟨w, d, hl, -, he⟩ | ⟨-, he⟩ := step_cases s <;> rw [he] at hstep
  · exact engineStep_keeps_inv h hd hstep
  · exact hostTurn_keeps_inv (h.countdown ((State.busy_iff s).mpr ⟨w, hl⟩) d) hstep
  · exact hostTurn_keeps_inv h hstep

end Sys2Proof.Machine

/-! ### What a completion and a turn of the host leave unchanged (10_state.md R15, R31, R32, R34; 30_encoding.md R56, R57) -/

namespace Sys2Proof.Machine

/-! ### The completion step -/

/-- All that a completion can change (R56, R88). -/
theorem engineStep_frame {s t : State} {w : Word} (h : engineStep w s = .next t) :
    ∃ pal lbuf fb pcur status, t = { s with
      pal := pal, lbuf := lbuf, fb := fb, pcur := pcur, status := status, latch := .idle, srcTouched := false } := by
  obtain ⟨i, -, hi⟩ | ⟨-, hill⟩ := engineStep_cases w s
  · obtain ⟨e, -, rfl, -⟩ | ⟨-, rfl, -⟩ := exec_cases (hi ▸ h)
    · exact ⟨_, _, _, _, _, rfl⟩
    · obtain ⟨_, _, _, _, _, heq⟩ := effectOf_frame i s
      rw [heq]
      exact ⟨_, _, _, _, _, rfl⟩
  · obtain rfl : s.finish _ = t := Host.Outcome.next.inj (hill ▸ h)
    exact ⟨_, _, _, _, _, rfl⟩

/-- Settles O13: none of these fields is among those a completion can change. -/
theorem completionKeepsSrcAndControls : Obligations.CompletionKeepsSrcAndControls := by
  intro s t w h
  obtain ⟨_, _, _, _, _, rfl⟩ := engineStep_frame h
  simp

/-- Only LDPAL has an effect on PAL (R32). -/
theorem effectOf_pal {i : Instr} (hi : i ≠ .ldpal) (s : State) : (effectOf i s).pal = s.pal := by
  cases i with
  | ldpal => exact absurd rfl hi
  | nop | demux | decbg | decspr => rfl
  | decode => obtain he | he := formatInto_cases s <;> rw [effectOf, he] <;> rfl
  | frame => obtain he | he := formatInto_cases (demuxInto s s.frameN) <;> rw [effectOf, he] <;> rfl

/-- Only the decoders and FRAME have an effect on FB (R34). -/
theorem effectOf_fb {i : Instr} (hi : i = .nop ∨ i = .ldpal ∨ i = .demux) (s : State) : (effectOf i s).fb = s.fb := by
  obtain rfl | rfl | rfl := hi <;> rfl

/-- A completion that changes PAL or FB is that of a legal word whose command ended with no error (R58, R89). -/
theorem engineStep_changes {s t : State} {w : Word} (h : engineStep w s = .next t) :
    (t.pal = s.pal ∧ t.fb = s.fb) ∨ ∃ i, decode w = .ok i ∧ t.status.err = 0
      ∧ t.pal = (effectOf i s).pal ∧ t.fb = (effectOf i s).fb := by
  obtain ⟨i, hd, hi⟩ | ⟨-, hill⟩ := engineStep_cases w s
  · obtain ⟨e, -, rfl, -⟩ | ⟨-, rfl, herr⟩ := exec_cases (hi ▸ h)
    · exact .inl ⟨rfl, rfl⟩
    · exact .inr ⟨i, hd, herr, rfl, rfl⟩
  · obtain rfl : s.finish _ = t := Host.Outcome.next.inj (hill ▸ h)
    exact .inl ⟨rfl, rfl⟩

/-! ### The word of a decoded command (R55, R57) -/

theorem eq_opOf_of_opcode {op : BitVec 4} {i : Instr} (h : opcode op.toNat = .ok i) : op = opOf i := by
  cases i <;> revert op <;> decide

/-- A word is its MBZ field above its OP field. -/
theorem mbzField_append_opField (w : Word) : mbzField w ++ opField w = w :=
  (BitVec.extractLsb'_append_extractLsb'_eq_extractLsb' rfl).trans BitVec.extractLsb'_eq_self

/-- Only the word of a command decodes to it. -/
theorem eq_encode_of_decode {w : Word} {i : Instr} (h : decode w = .ok i) : w = encode i := by
  unfold decode at h
  split at h
  case isTrue hmbz => rw [encode, ← eq_opOf_of_opcode h, ← hmbz, mbzField_append_opField]
  case isFalse => cases h

/-- The two buffers change in a completion only by the commands whose writes column lists them (R56). -/
theorem engineStep_changes_pal_fb {s t : State} {w : Word} (h : engineStep w s = .next t) :
    (t.pal ≠ s.pal → w = 0x00000001 ∧ t.status.err = 0)
      ∧ (t.fb ≠ s.fb → t.status.err = 0
        ∧ (w = 0x00000003 ∨ w = 0x00000004 ∨ w = 0x00000005 ∨ w = 0x00000006)) := by
  obtain ⟨hpal, hfb⟩ | ⟨i, hd, herr, hpal, hfb⟩ := engineStep_changes h
  · exact ⟨absurd hpal, absurd hfb⟩
  · rw [hpal, hfb, eq_encode_of_decode hd]
    cases i with
    | ldpal => exact ⟨fun _ => ⟨by decide, herr⟩, absurd (effectOf_fb (by simp) s)⟩
    | nop | demux => exact ⟨absurd (effectOf_pal (by simp) s), absurd (effectOf_fb (by simp) s)⟩
    | decbg | decspr | decode | frame => exact ⟨absurd (effectOf_pal (by simp) s), fun _ => ⟨herr, by decide⟩⟩

/-! ### Bus writes and turns of the host -/

/-- No bus write reaches PAL or FB (R41, R42). -/
theorem busWrite_pal_fb {s t : State} {bytes off : Nat} {v : Word} (h : busWrite s bytes off v = some t) :
    t.pal = s.pal ∧ t.fb = s.fb := by
  obtain ⟨r, rfl⟩ | ⟨k, -, -, rfl⟩ := busWrite_cases h
  · obtain ⟨-, -, he⟩ | he | ⟨-, -, he⟩ | ⟨-, _, _, _, _, _, _, _, _, _, _, he⟩ := writeReg_cases s r v <;>
      rw [he] <;> exact ⟨rfl, rfl⟩
  · obtain ⟨-, he⟩ | ⟨-, he⟩ := writeLbuf_cases s k bytes v <;> rw [he] <;> exact ⟨rfl, rfl⟩

/-- A turn of the host that changes PAL or FB is the reset input (R103). -/
theorem hostTurn_changes_pal_fb {s t : State} (h : hostTurn s = .next t) (hne : t.pal ≠ s.pal ∨ t.fb ≠ s.fb) :
    ∃ rest, s.hostQueue = .reset :: rest := by
  obtain ⟨-, rfl⟩ | ⟨a, rest, hq, hcase⟩ := hostTurn_cases h
  · simp at hne
  · obtain ⟨_, _, _, -, rfl⟩ | ⟨_, _, _, u, -, hw, rfl⟩ | ⟨-, _, _, rfl⟩ | ⟨_, _, -, rfl⟩ | ⟨rfl, -⟩ := hcase
    · simp at hne
    · simp [busWrite_pal_fb hw] at hne
    · simp at hne
    · simp at hne
    · exact ⟨rest, hq⟩

/-- Settles O15: a completion changes them only by its command, and a turn of the host only by the reset input. -/
theorem palAndFbChangeOnlyByTheirCommands : Obligations.PalAndFbChangeOnlyByTheirCommands := by
  intro s t h
  obtain ⟨w, hl, hd, he⟩ | ⟨w, d, -, hd, he⟩ | ⟨hl, he⟩ := step_cases s <;> rw [he] at h
  · obtain ⟨hpal, hfb⟩ := engineStep_changes_pal_fb h
    refine ⟨fun hne => .inl ?_, fun hne => .inl ?_⟩
    · obtain ⟨rfl, herr⟩ := hpal hne
      exact ⟨hl, hd, herr⟩
    · obtain ⟨herr, hw⟩ := hfb hne
      exact ⟨w, hl, hd, herr, hw⟩
  · have hturn : s.latch = .idle ∨ 0 < s.delay := .inr (by omega)
    have hreset := hostTurn_changes_pal_fb (s := { s with delay := d }) h
    exact ⟨fun hne => .inr ⟨hreset (.inl hne), hturn⟩, fun hne => .inr ⟨hreset (.inr hne), hturn⟩⟩
  · have hreset := hostTurn_changes_pal_fb h
    exact ⟨fun hne => .inr ⟨hreset (.inl hne), .inl hl⟩, fun hne => .inr ⟨hreset (.inr hne), .inl hl⟩⟩

end Sys2Proof.Machine

/-! ### The decoders leave in FB what the store loops leave (43_tile.md R76; 44_sprite.md R81; log 14)

Every pixel a loop stores has the byte of one fixed frame, so the order of the loops does not matter: what a loop leaves
is given by the frame and by which bytes the loop reaches. -/

namespace Sys2Proof.Machine

/-! ### Bodies that paint a part of a frame -/

/-- `body` gives each byte of `area` its value in `frame` and leaves every other byte alone. -/
def Paints (frame : Nat → Byte) (area : Nat → Prop) (body : Memory → Memory) : Prop :=
  ∀ m p, (area p → Memory.byteAt (body m) p = some (frame p))
    ∧ (¬ area p → Memory.byteAt (body m) p = Memory.byteAt m p)

/-- Byte `p` belongs to pixel (x, y) of a `w`-wide frame (R35). -/
def PixelByte (w x y p : Nat) : Prop := 3 * (y * w + x) ≤ p ∧ p < 3 * (y * w + x) + 3

theorem forRange_succ (n : Nat) (body : Nat → Memory → Memory) (m : Memory) :
    forRange (n + 1) body m = body n (forRange n body m) := by
  simp [forRange, List.range_succ]

/-- A loop paints what one of its rounds paints. -/
theorem Paints.forRange {frame : Nat → Byte} {area : Nat → Nat → Prop} {body : Nat → Memory → Memory} {n : Nat}
    (h : ∀ i < n, Paints frame (area i) (body i)) :
    Paints frame (fun p => ∃ i < n, area i p) (forRange n body) := by
  induction n with
  | zero => exact fun m p => ⟨fun ⟨i, hi, _⟩ => absurd hi (Nat.not_lt_zero i), fun _ => rfl⟩
  | succ n ih =>
    intro m p
    obtain ⟨hin, hout⟩ := ih (fun i hi => h i (Nat.lt_succ_of_lt hi)) m p
    obtain ⟨hlast, hkeep⟩ := h n (Nat.lt_succ_self n) (Machine.forRange n body m) p
    rw [forRange_succ]
    by_cases hn : area n p
    · exact ⟨fun _ => hlast hn, fun hno => absurd ⟨n, Nat.lt_succ_self n, hn⟩ hno⟩
    · rw [hkeep hn]
      refine ⟨fun ⟨i, hi, hip⟩ => hin ⟨i, ?_, hip⟩, fun hno => hout fun ⟨i, hi, hip⟩ => hno ⟨i, by omega, hip⟩⟩
      have : i ≠ n := fun e => hn (e ▸ hip)
      omega

/-- A stored pixel paints its three bytes of a frame that shows its colour there (R35). -/
theorem paints_storePixel (pal : Vector Rgb 16) {w x : Nat} (y : Nat) (hx : x < w) {idxAt : Nat → Nat → BitVec 4}
    {idx : BitVec 4} (hidx : idxAt x y = idx) :
    Paints (frameByte pal w idxAt) (PixelByte w x y) (storePixel w x y (palEntry pal idx)) := by
  intro m p
  rw [storePixel, Memory.byteAt_writeRange]
  refine ⟨fun hp => ?_, fun hp => if_neg hp⟩
  obtain ⟨hlo, hhi⟩ := hp
  obtain ⟨c, rfl⟩ := Nat.exists_eq_add_of_le hlo
  rw [if_pos ⟨hlo, hhi⟩, frameByte_pixel pal w idxAt y hx (by omega), hidx, Nat.add_sub_cancel_left]

/-- Painting exactly the first `n` bytes of a frame is writing them in address order. -/
theorem Paints.byteAt_writeRange {frame : Nat → Byte} {area : Nat → Prop} {body : Memory → Memory}
    (h : Paints frame area body) {n : Nat} (harea : ∀ p, area p ↔ p < n) (m : Memory) (p : Nat) :
    Memory.byteAt (Memory.writeRange m 0 n frame) p = Memory.byteAt (body m) p := by
  obtain ⟨hin, hout⟩ := h m p
  rw [harea] at hin hout
  rw [Memory.byteAt_writeRange]
  by_cases hp : p < n
  · simp [hp, hin hp]
  · simp [hp, hout hp]

/-! ### Which bytes the loops reach -/

/-- The bytes of the pixels inside the frame are the first 3*W*H bytes (R34, R35). -/
theorem lt_frame_of_pixelByte {w h x y p : Nat} (hx : x < w) (hy : y < h) (hp : PixelByte w x y p) :
    p < 3 * (w * h) := by
  have hrow : y * w + w ≤ w * h := by
    calc y * w + w = (y + 1) * w := (Nat.succ_mul y w).symm
      _ ≤ h * w := Nat.mul_le_mul_right w hy
      _ = w * h := Nat.mul_comm h w
  have := hp.2
  omega

/-- Every byte of the frame belongs to a pixel inside it. -/
theorem exists_pixelByte {w h p : Nat} (hp : p < 3 * (w * h)) : ∃ x < w, ∃ y < h, PixelByte w x y p := by
  have hq : p / 3 < w * h := by omega
  have hw : 0 < w := Nat.pos_of_ne_zero fun h0 => by simp [h0] at hp
  refine ⟨p / 3 % w, Nat.mod_lt _ hw, p / 3 / w, Nat.div_lt_of_lt_mul hq, ?_⟩
  rw [PixelByte, Nat.mul_comm (p / 3 / w), Nat.div_add_mod]
  omega

/-- The tiles of R74 cover the frame. -/
theorem tileBytes_iff {w h : Nat} (hw : w % 8 = 0) (hh : h % 8 = 0) (p : Nat) :
    (∃ ty < h / 8, ∃ tx < w / 8, ∃ r < 8, ∃ x < 8, PixelByte w (8 * tx + x) (8 * ty + r) p) ↔ p < 3 * (w * h) := by
  constructor
  · rintro ⟨ty, hty, tx, htx, r, hr, x, hx, hp⟩
    exact lt_frame_of_pixelByte (by omega) (by omega) hp
  · intro hp
    obtain ⟨x, hx, y, hy, hxy⟩ := exists_pixelByte hp
    refine ⟨y / 8, by omega, x / 8, by omega, y % 8, by omega, x % 8, by omega, ?_⟩
    rwa [Nat.div_add_mod, Nat.div_add_mod]

theorem cellU_eq (i j : Nat) : cellU i j = 16 * (i % 2) + 32 * j := by
  rw [cellU, Nat.and_one_is_mod]; omega

theorem cellV_eq (i : Nat) : cellV i = 16 * (i / 2) := by
  rw [cellV, Nat.shiftRight_one]; omega

/-- The cells of R79 cover the frame. -/
theorem cellBytes_iff {w h : Nat} (hw : w % 32 = 0) (hh : h % 16 = 0) (p : Nat) :
    (∃ j < w / 32, ∃ i < h / 8, ∃ r < 16, ∃ x < 16, PixelByte w (cellU i j + x) (cellV i + r) p)
      ↔ p < 3 * (w * h) := by
  simp only [cellU_eq, cellV_eq]
  constructor
  · rintro ⟨j, hj, i, hi, r, hr, x, hx, hp⟩
    exact lt_frame_of_pixelByte (by omega) (by omega) hp
  · intro hp
    obtain ⟨x, hx, y, hy, hxy⟩ := exists_pixelByte hp
    refine ⟨x / 32, by omega, 2 * (y / 16) + x % 32 / 16, by omega, y % 16, by omega, x % 16, by omega, ?_⟩
    have hcol : 16 * ((2 * (y / 16) + x % 32 / 16) % 2) + 32 * (x / 32) + x % 16 = x := by omega
    have hrow : 16 * ((2 * (y / 16) + x % 32 / 16) / 2) + y % 16 = y := by omega
    rwa [hcol, hrow]

/-! ### The index of a stored pixel -/

/-- Pixel (x, r) of tile (tx, ty) is pixel (8*tx + x, 8*ty + r) of the frame (R74). -/
theorem bgIndexAt_tile (s : State) (tx ty : Nat) {r x : Nat} (hr : r < 8) (hx : x < 8) :
    s.bgIndexAt (8 * tx + x) (8 * ty + r) = tileIndex s.lbufByte (ty * (s.frameW / 8) + tx) r x := by
  have htx : (8 * tx + x) / 8 = tx ∧ (8 * tx + x) % 8 = x := by omega
  have hty : (8 * ty + r) / 8 = ty ∧ (8 * ty + r) % 8 = r := by omega
  rw [State.bgIndexAt, htx.1, htx.2, hty.1, hty.2]

/-- Pixel (x, r) of cell (i, j) is pixel (u + x, v + r) of the frame (R79, R80). -/
theorem sprIndexAt_cell (s : State) (i j : Nat) {r x : Nat} (hr : r < 16) (hx : x < 16) :
    s.sprIndexAt (cellU i j + x) (cellV i + r) = cellIndex s.lbufByte (j * (s.frameH / 8) + i) r x := by
  rw [cellU_eq, cellV_eq]
  have hj : (16 * (i % 2) + 32 * j + x) / 32 = j ∧ (16 * (i % 2) + 32 * j + x) % 16 = x := by omega
  have hi : 2 * ((16 * (i / 2) + r) / 16) + (16 * (i % 2) + 32 * j + x) % 32 / 16 = i := by omega
  have hrow : (16 * (i / 2) + r) % 16 = r := by omega
  rw [State.sprIndexAt, hj.1, hj.2, hi, hrow]

/-! ### The loops and the decoders -/

/-- The loops of R76 and the BG decoder leave the same FB. -/
theorem byteAt_bgInto_fb {s : State} (h : AlignBg s) (p : Nat) :
    Memory.byteAt (bgInto s).fb p = Memory.byteAt (bgStoreLoop s) p := by
  obtain ⟨hw, hh⟩ := h
  refine Paints.byteAt_writeRange ?_ (tileBytes_iff hw hh) s.fb p
  refine .forRange fun ty _ => .forRange fun tx htx => .forRange fun r hr => .forRange fun x hx => ?_
  have hcol : 8 * tx + x < s.frameW := by unfold State.frameW at *; omega
  exact paints_storePixel s.pal _ hcol (bgIndexAt_tile s tx ty hr hx)

/-- The loops of R81 and the SPR decoder leave the same FB. -/
theorem byteAt_sprInto_fb {s : State} (h : AlignSpr s) (p : Nat) :
    Memory.byteAt (sprInto s).fb p = Memory.byteAt (sprStoreLoop s) p := by
  obtain ⟨hw, hh⟩ := h
  refine Paints.byteAt_writeRange ?_ (cellBytes_iff hw hh) s.fb p
  refine .forRange fun j hj => .forRange fun i _ => .forRange fun r hr => .forRange fun x hx => ?_
  have hcol : cellU i j + x < s.frameW := by rw [cellU_eq]; unfold State.frameW at *; omega
  exact paints_storePixel s.pal _ hcol (sprIndexAt_cell s i j hr hx)

theorem exec_decbg_of_geometry {s : State} (hd : DimOk s) (ha : AlignBg s) :
    exec .decbg s = .next ((bgInto s).finish 0) := by
  have hdim : badDim s = false := (badDim_false_iff s).mpr hd
  have halign : badAlignBg s = false := (badAlignBg_false_iff s).mpr ha
  simp [exec_eq_complete, errorOf, effectOf, bgChecks, hdim, halign]

theorem exec_decspr_of_geometry {s : State} (hd : DimOk s) (ha : AlignSpr s) :
    exec .decspr s = .next ((sprInto s).finish 0) := by
  have hdim : badDim s = false := (badDim_false_iff s).mpr hd
  have halign : badAlignSpr s = false := (badAlignSpr_false_iff s).mpr ha
  simp [exec_eq_complete, errorOf, effectOf, sprChecks, hdim, halign]

/-- Settles O29: each stored pixel has its colour in the decoded frame, and the tiles cover the frame. -/
theorem decbgMeetsStoreLoop : Obligations.DecbgMeetsStoreLoop :=
  fun _ hd ha => ⟨_, exec_decbg_of_geometry hd ha, byteAt_bgInto_fb ha⟩

/-- Settles O33: each stored pixel has its colour in the decoded frame, and the cells cover the frame. -/
theorem decsprMeetsStoreLoop : Obligations.DecsprMeetsStoreLoop :=
  fun _ hd ha => ⟨_, exec_decspr_of_geometry hd ha, byteAt_sprInto_fb ha⟩

end Sys2Proof.Machine

/-! ### The register file on the bus (10_state.md section 3, R17 to R31, R37) -/

namespace Sys2Proof.Machine

/-! ### Where an access lands (R40 to R42) -/

theorem locate_reg (r : Reg) : locate 4 r.offset.toNat = some (.reg r) := by cases r <;> rfl

theorem locate_pal (n : Fin 16) : locate 4 (0x40 + 4 * n.val) = some (.pal n) := by revert n; decide

/-- A legal access of the LBUF window. -/
theorem locate_lbufWindow {bytes k : Nat} (hb : bytes = 1 ∨ bytes = 2 ∨ bytes = 4) (hk : k % bytes = 0)
    (hlt : k < 131072) : locate bytes (0x100000 + k) = some (.lbuf k) := by
  have hlane : laneAligned bytes (0x100000 + k) = true := by
    rw [laneAligned, decide_eq_true_eq]
    obtain rfl | rfl | rfl := hb <;> omega
  unfold locate
  rw [if_neg (by omega), if_neg (by omega), if_neg (by omega), if_neg (by omega), if_pos (by omega), if_pos hlane,
    Nat.add_sub_cancel_left]

/-- A legal access of the FB window. -/
theorem locate_fbWindow {bytes k : Nat} (hb : bytes = 1 ∨ bytes = 2 ∨ bytes = 4) (hk : k % bytes = 0)
    (hlt : k < 786432) : locate bytes (0x200000 + k) = some (.fb k) := by
  have hlane : laneAligned bytes (0x200000 + k) = true := by
    rw [laneAligned, decide_eq_true_eq]
    obtain rfl | rfl | rfl := hb <;> omega
  unfold locate
  rw [if_neg (by omega), if_neg (by omega), if_neg (by omega), if_neg (by omega), if_neg (by omega),
    if_neg (by omega), if_pos (by omega), if_pos hlane, Nat.add_sub_cancel_left]

theorem eq_offset_of_regAt {off : Nat} {r : Reg} (h : regAt off = some r) : off = r.offset.toNat := by
  unfold regAt at h
  split at h <;> cases h <;> rfl

/-- An access that reaches a register is at that register's offset. -/
theorem eq_offset_of_locate {bytes off : Nat} {r : Reg} (h : locate bytes off = some (.reg r)) :
    off = r.offset.toNat := by
  have hreg : (regAt off).map Place.reg = some (.reg r) := by
    unfold locate at h
    split_ifs at h
    · exact h
    all_goals simp at h
  exact eq_offset_of_regAt (by simpa using hreg)

/-! ### What an access answers -/

theorem busRead_of_locate {s : State} {bytes off : Nat} {p : Place} (h : locate bytes off = some p) :
    busRead s bytes off = some (readPlace s bytes p) := by
  rw [busRead, h, Option.map_some]

theorem busRead_reg (s : State) (r : Reg) : busRead s 4 r.offset.toNat = some (readReg s r) :=
  busRead_of_locate (locate_reg r)

theorem busWrite_reg (s : State) (r : Reg) (v : Word) : busWrite s 4 r.offset.toNat v = some (writeReg s r v) := by
  rw [busWrite, locate_reg]

/-- A write to STATUS takes effect whether or not BUSY = 1 (R20, R31). -/
theorem busWrite_status (s : State) (v : Word) :
    busWrite s 4 0x08 v = some { s with status := s.status.writeOneToClear v } := by
  rw [← writeReg_status]
  exact busWrite_reg s .status v

/-! ### The words of the registers -/

/-- Appended fields are added at their bit positions. -/
theorem toNat_append_eq_add {m n : Nat} (x : BitVec m) (y : BitVec n) :
    (x ++ y).toNat = 2 ^ n * x.toNat + y.toNat := by
  rw [BitVec.toNat_append, ← Nat.shiftLeft_add_eq_or_of_lt y.isLt, Nat.shiftLeft_eq, Nat.mul_comm]

theorem Ctrl.word_eq (c : Ctrl) : c.word = BitVec.ofNat 32 (c.ie.toNat + 2 * c.zskip.toNat) := by
  obtain ⟨ie, zskip⟩ := c
  cases ie <;> cases zskip <;> rfl

theorem Status.word_eq (busy : Bool) (st : Status) : st.word busy
    = BitVec.ofNat 32 (busy.toNat + 2 * st.done.toNat + 4 * st.short.toNat + 8 * st.ovr.toNat + 256 * st.err.toNat) := by
  apply BitVec.eq_of_toNat_eq
  have herr := st.err.isLt
  have hbit (b : Bool) := b.toNat_le
  have := hbit busy; have := hbit st.done; have := hbit st.short; have := hbit st.ovr
  simp only [Status.word, toNat_append_eq_add, BitVec.toNat_ofBool, BitVec.ofNat_eq_ofNat, BitVec.toNat_ofNat]
  omega

theorem Rgb.word_eq (e : Rgb) : e.word = BitVec.ofNat 32 (e.r.toNat + 256 * e.g.toNat + 65536 * e.b.toNat) := by
  apply BitVec.eq_of_toNat_eq
  have hr := e.r.isLt; have hg := e.g.isLt; have hb := e.b.isLt
  simp only [Rgb.word, toNat_append_eq_add, BitVec.ofNat_eq_ofNat, BitVec.toNat_ofNat]
  omega

/-- Settles O39: each offset reads its register, whose fields stand at their bit positions. -/
theorem registerReads : Obligations.RegisterReads := by
  intro s
  have wide {n : Nat} (x : BitVec n) : x.setWidth 32 = BitVec.ofNat 32 x.toNat := (BitVec.ofNat_toNat 32 x).symm
  refine ⟨?_, busRead_reg s .cmd, ?_, ?_, ?_, ?_, fun hidle => ?_, busRead_reg s .srcLen, busRead_reg s .dmxLen,
    ?_, ?_, ?_⟩
  · exact (busRead_reg s .ctrl).trans (congrArg some s.ctrl.word_eq)
  · exact (busRead_reg s .status).trans (congrArg some (s.status.word_eq s.busy))
  · exact (busRead_reg s .width).trans (congrArg some (wide s.width))
  · exact (busRead_reg s .height).trans (congrArg some (wide s.height))
  · exact (busRead_reg s .format).trans (congrArg some (wide s.format))
  · refine (busRead_reg s .pcur).trans (congrArg some ?_)
    simp [readReg, (State.not_busy_iff s).mpr hidle]
  · exact (busRead_reg s .chunk).trans (congrArg some (wide s.chunk))
  · exact (busRead_reg s .gap).trans (congrArg some (wide s.gap))
  · exact (busRead_reg s .sector).trans (congrArg some (wide s.sector))

/-- Settles O40: PALn is a place of its own, which reads its entry and takes no write. -/
theorem palRegistersReadOnly : Obligations.PalRegistersReadOnly := by
  intro s n v
  refine ⟨fun hidle => ?_, by rw [busWrite, locate_pal]⟩
  rw [busRead_of_locate (locate_pal n), readPlace, (State.not_busy_iff s).mpr hidle, Rgb.word_eq]
  rfl

/-- Settles O41: while idle no write is dropped, and each register takes the low bits of the value. -/
theorem idleRegisterWrites : Obligations.IdleRegisterWrites := by
  intro s v hidle
  have hbusy : s.busy = false := (State.not_busy_iff s).mpr hidle
  refine ⟨(busWrite_reg s .ctrl v).trans ?_, (busWrite_reg s .width v).trans ?_, (busWrite_reg s .height v).trans ?_,
    (busWrite_reg s .format v).trans ?_, (busWrite_reg s .pcur v).trans ?_, (busWrite_reg s .srcLen v).trans ?_,
    (busWrite_reg s .dmxLen v).trans ?_, (busWrite_reg s .chunk v).trans ?_, (busWrite_reg s .gap v).trans ?_,
    (busWrite_reg s .sector v).trans ?_⟩ <;> simp [writeReg, hbusy, Ctrl.ofWord]

/-! A flag of STATUS is set after a write exactly when it was set and its own bit is not written with 1 (R20). -/

theorem Status.writeOneToClear_done_iff (st : Status) (v : Word) :
    (st.writeOneToClear v).done = true ↔ st.done = true ∧ v.getLsbD 1 = false := by
  simp [Status.writeOneToClear]

theorem Status.writeOneToClear_short_iff (st : Status) (v : Word) :
    (st.writeOneToClear v).short = true ↔ st.short = true ∧ v.getLsbD 2 = false := by
  simp [Status.writeOneToClear]

theorem Status.writeOneToClear_ovr_iff (st : Status) (v : Word) :
    (st.writeOneToClear v).ovr = true ↔ st.ovr = true ∧ v.getLsbD 3 = false := by
  simp [Status.writeOneToClear]

/-- Settles O42: the write reaches STATUS in every state, and clears each flag by its own bit. -/
theorem statusWriteOneToClear : Obligations.StatusWriteOneToClear :=
  fun s v => ⟨_, busWrite_status s v, rfl, s.status.writeOneToClear_done_iff v, s.status.writeOneToClear_short_iff v,
    s.status.writeOneToClear_ovr_iff v, s.status.writeOneToClear_err v⟩

/-! ### While BUSY = 1 (R31) -/

/-- While BUSY = 1 an accepted write is dropped or is one to STATUS. -/
theorem busWrite_busy_cases {s t : State} {bytes off : Nat} {v : Word} (hb : s.busy = true)
    (h : busWrite s bytes off v = some t) :
    t = s.dropWrite ∨ (off = 0x08 ∧ t = { s with status := s.status.writeOneToClear v }) := by
  unfold busWrite at h
  split at h
  case h_1 r hloc =>
    obtain rfl : writeReg s r v = t := Option.some.inj h
    by_cases hr : r = .status
    · subst hr
      exact .inr ⟨eq_offset_of_locate hloc, writeReg_status s v⟩
    · exact .inl (writeReg_busy hb hr v)
  case h_2 k _ =>
    obtain rfl : writeLbuf s k bytes v = t := Option.some.inj h
    obtain ⟨-, he⟩ | ⟨hidle, -⟩ := writeLbuf_cases s k bytes v
    · exact .inl he
    · exact absurd (hb.symm.trans hidle) (by decide)
  all_goals cases h

/-- All that a turn of the host can change under a command, unless it is the reset input: flags of STATUS, SRC and the
host's own side (R31, R107). -/
theorem hostTurn_busy_frame {s t : State} (hb : s.busy = true) (h : hostTurn s = .next t) (hbt : t.busy = true) :
    ∃ done short ovr src queue response touched draws, t = { s with
      status := { done := done, short := short, ovr := ovr, err := s.status.err }
      src := src, hostQueue := queue, response := response, srcTouched := touched, draws := draws } := by
  obtain ⟨-, rfl⟩ | ⟨a, rest, -, hcase⟩ := hostTurn_cases h
  · exact ⟨_, _, _, _, _, _, _, _, rfl⟩
  · obtain ⟨_, _, _, -, rfl⟩ | ⟨_, _, v, u, -, hw, rfl⟩ | ⟨-, _, _, rfl⟩ | ⟨_, _, -, rfl⟩ | ⟨-, rfl⟩ := hcase
    · exact ⟨_, _, _, _, _, _, _, _, rfl⟩
    · obtain rfl | ⟨-, rfl⟩ := busWrite_busy_cases (s := { s with hostQueue := rest }) hb hw
      · exact ⟨_, _, _, _, _, _, _, _, rfl⟩
      · exact ⟨_, _, _, _, _, _, _, _, rfl⟩
    · exact ⟨_, _, _, _, _, _, _, _, rfl⟩
    · exact ⟨_, _, _, _, _, _, _, _, rfl⟩
    · simp at hbt

/-- Settles O43: an accepted write while BUSY = 1 is dropped or is one to STATUS. -/
theorem busyWritesDropped : Obligations.BusyWritesDropped := by
  refine ⟨fun s t bytes off v hb hoff h => ?_, fun s t hb h hbt => ?_,
    fun s v _ => ⟨_, busWrite_status s v, s.status.writeOneToClear_ovr_iff v⟩⟩
  · obtain rfl | ⟨rfl, -⟩ := busWrite_busy_cases hb h
    · rfl
    · exact absurd rfl hoff
  · obtain ⟨_, _, _, _, _, _, _, _, rfl⟩ := hostTurn_busy_frame hb h hbt
    simp

end Sys2Proof.Machine

/-! ### The buffer windows on the bus (20_memory.md R40, R42, R45; R37; log 16) -/

namespace Sys2Proof.Machine

/-! ### Bytes of a word, least significant first (R45) -/

/-- The number held in `n` bytes from `k` on, least significant first. -/
def littleEndian (f : Nat → Byte) (k : Nat) : Nat → Nat
  | 0 => 0
  | n + 1 => (f k).toNat + 256 * littleEndian f (k + 1) n

/-- A byte below a word shifted up by eight bits is added to it. -/
theorem setWidth_or_shiftLeft (b : Byte) (m : Nat) :
    b.setWidth 32 ||| (BitVec.ofNat 32 m <<< 8) = BitVec.ofNat 32 (b.toNat + 256 * m) := by
  have hdisjoint : b.setWidth 32 &&& (BitVec.ofNat 32 m <<< 8) = 0#32 := by
    ext i hi
    by_cases h : i < 8
    · simp [h]
    · simp [BitVec.getLsbD_of_ge b i (by omega)]
  rw [← BitVec.add_eq_or_of_and_eq_zero _ _ hdisjoint, BitVec.shiftLeft_eq_mul_twoPow,
    BitVec.ofNat_add, BitVec.ofNat_mul, BitVec.ofNat_toNat, BitVec.mul_comm]
  rfl

theorem readBytes_eq (f : Nat → Byte) (k n : Nat) : readBytes f k n = BitVec.ofNat 32 (littleEndian f k n) := by
  induction n generalizing k with
  | zero => rfl
  | succ n ih => rw [readBytes, ih, setWidth_or_shiftLeft, littleEndian]

theorem littleEndian_one (f : Nat → Byte) (k : Nat) : littleEndian f k 1 = (f k).toNat := by
  simp [littleEndian]

theorem littleEndian_two (f : Nat → Byte) (k : Nat) :
    littleEndian f k 2 = (f k).toNat + 256 * (f (k + 1)).toNat := by
  simp [littleEndian]

theorem littleEndian_four (f : Nat → Byte) (k : Nat) : littleEndian f k 4
    = (f k).toNat + 256 * (f (k + 1)).toNat + 65536 * (f (k + 2)).toNat + 16777216 * (f (k + 3)).toNat := by
  simp only [littleEndian, Nat.add_assoc, Nat.reduceAdd]
  omega

theorem dataByte_toNat (v : Word) (i : Nat) : (dataByte v i).toNat = v.toNat / 2 ^ (8 * i) % 256 := by
  rw [dataByte, BitVec.extractLsb'_toNat, Nat.shiftRight_eq_div_pow]

/-! ### Accesses of the windows -/

section Window

variable {s : State} {bytes k : Nat} (hb : bytes = 1 ∨ bytes = 2 ∨ bytes = 4) (hk : k % bytes = 0)
include hb hk

/-- While idle a read of the LBUF window answers its bytes (R33, R45). -/
theorem busRead_lbuf_idle (hidle : s.latch = .idle) (hlt : k < 131072) :
    busRead s bytes (0x100000 + k) = some (BitVec.ofNat 32 (littleEndian s.lbufByte k bytes)) := by
  rw [busRead_of_locate (locate_lbufWindow hb hk hlt), readPlace, (State.not_busy_iff s).mpr hidle, readBytes_eq]
  rfl

/-- While idle a read of the FB window answers its bytes (R34, R45). -/
theorem busRead_fb_idle (hidle : s.latch = .idle) (hlt : k < 786432) :
    busRead s bytes (0x200000 + k) = some (BitVec.ofNat 32 (littleEndian s.fbByte k bytes)) := by
  rw [busRead_of_locate (locate_fbWindow hb hk hlt), readPlace, (State.not_busy_iff s).mpr hidle, readBytes_eq]
  rfl

/-- While idle a write of the LBUF window stores the bytes of its value and changes nothing else (R33, R45). -/
theorem busWrite_lbuf_idle (hidle : s.latch = .idle) (hlt : k < 131072) (v : Word) :
    ∃ t, busWrite s bytes (0x100000 + k) v = some t ∧ t = { s with lbuf := t.lbuf }
      ∧ (∀ i < bytes, (t.lbufByte (k + i)).toNat = v.toNat / 2 ^ (8 * i) % 256)
      ∧ ∀ a, (a < k ∨ k + bytes ≤ a) → t.lbufByte a = s.lbufByte a := by
  refine ⟨{ s with lbuf := Memory.writeRange s.lbuf k bytes (dataByte v) }, ?_, rfl, fun i hi => ?_, fun a ha => ?_⟩
  · rw [busWrite, locate_lbufWindow hb hk hlt]
    simp [writeLbuf, (State.not_busy_iff s).mpr hidle]
  · rw [State.lbufByte, Memory.byteAt_writeRange_inside hi, Option.getD_some, dataByte_toNat]
  · rw [State.lbufByte, Memory.byteAt_writeRange_outside ha]
    rfl

/-- While BUSY = 1 a read of the LBUF window is unspecified (R37). -/
theorem busRead_lbuf_busy (hbusy : s.busy = true) (hlt : k < 131072) :
    busRead s bytes (0x100000 + k) = some (s.busyRead bytes) := by
  rw [busRead_of_locate (locate_lbufWindow hb hk hlt), readPlace, if_pos hbusy]

/-- While BUSY = 1 a read of the FB window is unspecified (R37). -/
theorem busRead_fb_busy (hbusy : s.busy = true) (hlt : k < 786432) :
    busRead s bytes (0x200000 + k) = some (s.busyRead bytes) := by
  rw [busRead_of_locate (locate_fbWindow hb hk hlt), readPlace, if_pos hbusy]

end Window

/-- Settles O45: an access of each width stores or answers its bytes from the low one up. -/
theorem windowsLittleEndian : Obligations.WindowsLittleEndian := by
  intro s k hidle
  refine ⟨fun v hlt => ?_, fun v hk hlt => ?_, fun v hk hlt => ?_, fun hlt => ?_, fun hk hlt => ?_, fun hk hlt => ?_,
    fun hlt => ?_, fun hk hlt => ?_, fun hk hlt => ?_⟩
  · obtain ⟨t, hw, ht, hin, hout⟩ := busWrite_lbuf_idle (.inl rfl) (Nat.mod_one k) hidle hlt v
    exact ⟨t, hw, ht, by simpa using hin 0, fun a ha => hout a (by omega)⟩
  · obtain ⟨t, hw, ht, hin, hout⟩ := busWrite_lbuf_idle (.inr (.inl rfl)) hk hidle hlt v
    exact ⟨t, hw, ht, by simpa using hin 0, by simpa using hin 1, hout⟩
  · obtain ⟨t, hw, ht, hin, hout⟩ := busWrite_lbuf_idle (.inr (.inr rfl)) hk hidle hlt v
    have hhigh : (t.lbufByte (k + 3)).toNat = v.toNat / 16777216 % 256 := hin 3 (by omega)
    have hv := v.isLt
    exact ⟨t, hw, ht, by simpa using hin 0, by simpa using hin 1, by simpa using hin 2, by omega, hout⟩
  · exact littleEndian_one .. ▸ busRead_lbuf_idle (.inl rfl) (Nat.mod_one k) hidle hlt
  · exact littleEndian_two .. ▸ busRead_lbuf_idle (.inr (.inl rfl)) hk hidle hlt
  · exact littleEndian_four .. ▸ busRead_lbuf_idle (.inr (.inr rfl)) hk hidle hlt
  · exact littleEndian_one .. ▸ busRead_fb_idle (.inl rfl) (Nat.mod_one k) hidle hlt
  · exact littleEndian_two .. ▸ busRead_fb_idle (.inr (.inl rfl)) hk hidle hlt
  · exact littleEndian_four .. ▸ busRead_fb_idle (.inr (.inr rfl)) hk hidle hlt

/-! ### Free reads while BUSY = 1 (R37, R106; log 7) -/

/-- A free read of `bytes` bytes is the draw cut to that width. -/
theorem State.busyRead_eq (s : State) (bytes : Nat) :
    s.busyRead bytes = BitVec.ofNat 32 ((Config.readDraw s.draws).toNat % 2 ^ (8 * bytes)) := by
  rw [State.busyRead, ← BitVec.ofNat_toNat, BitVec.toNat_setWidth]

/-- A free read of a whole word is the draw itself. -/
theorem State.busyRead_word (s : State) : s.busyRead 4 = Config.readDraw s.draws := by
  rw [State.busyRead, BitVec.setWidth_eq, BitVec.setWidth_eq]

/-- Settles O47: each of these reads is the free value of its width, and counts one draw. -/
theorem busyReadsAreFree : Obligations.BusyReadsAreFree := by
  intro s hbusy
  have byte := congrArg some (s.busyRead_eq 1)
  have half := congrArg some (s.busyRead_eq 2)
  have word := congrArg some s.busyRead_word
  refine ⟨(busRead_reg s .pcur).trans ?_, fun n => (busRead_of_locate (locate_pal n)).trans ?_,
    fun k hlt => (busRead_lbuf_busy (.inl rfl) (Nat.mod_one k) hbusy hlt).trans byte,
    fun k hlt => (busRead_fb_busy (.inl rfl) (Nat.mod_one k) hbusy hlt).trans byte,
    fun k hk hlt => (busRead_lbuf_busy (.inr (.inl rfl)) hk hbusy hlt).trans half,
    fun k hk hlt => (busRead_fb_busy (.inr (.inl rfl)) hk hbusy hlt).trans half,
    fun k hk hlt => (busRead_lbuf_busy (.inr (.inr rfl)) hk hbusy hlt).trans word,
    fun k hk hlt => (busRead_fb_busy (.inr (.inr rfl)) hk hbusy hlt).trans word, fun v => if_pos hbusy⟩
  · rw [readReg, if_pos hbusy, word]
  · rw [readPlace, if_pos hbusy, word]

end Sys2Proof.Machine

/-! ### Reset (10_state.md R38; 70_reset_and_hazards.md R102, R103) -/

namespace Sys2Proof.Machine

/-- Every entry of PAL is black after reset (R38). -/
theorem reset_pal_get (i : Fin 16) : State.reset.pal.get i = { r := 0, g := 0, b := 0 } :=
  Vector.getElem_replicate i.isLt

/-- Settles O6: the registers are constants of the reset state, and no LBUF or FB byte is listed in it. -/
theorem resetValues : Obligations.ResetValues :=
  ⟨by decide, rfl, rfl, by decide, rfl, rfl, rfl, rfl, rfl, rfl, rfl, rfl, rfl, rfl, rfl, rfl, rfl, rfl,
    reset_pal_get, fun _ => rfl, fun _ => rfl, rfl, rfl⟩

/-- While no completion is due the step is a turn of the host (log 1). -/
theorem step_eq_hostTurn {s : State} (h : s.latch = .idle ∨ 0 < s.delay) :
    ∃ d, step s = hostTurn { s with delay := d } := by
  obtain ⟨w, hl, hd, -⟩ | ⟨w, d, -, -, he⟩ | ⟨-, he⟩ := step_cases s
  · exfalso
    obtain hidle | hpos := h
    · simp [hl] at hidle
    · omega
  · exact ⟨d, he⟩
  · exact ⟨s.delay, he⟩

/-- Settles O7: the turn of the host is the reset input, which takes nothing from the countdown it abandons. -/
theorem resetInputAbandonsCommand : Obligations.ResetInputAbandonsCommand := by
  intro s rest hq hturn
  obtain ⟨d, hstep⟩ := step_eq_hostTurn hturn
  refine ⟨State.resetInput { s with hostQueue := rest }, ?_, rfl, fun _ => rfl, fun _ => rfl, rfl, rfl, rfl⟩
  rw [hstep, hostTurn, hq]
  rfl

end Sys2Proof.Machine

/-! ### Bus errors (20_memory.md R40 to R43; 60_exceptions.md R92; 93_implementation_defined.md U8; log 3) -/

namespace Sys2Proof.Machine

/-! ### Which accesses reach nothing (R40 to R42) -/

/-- The ranges of R40 cover every offset. -/
theorem offset_cases (off : Nat) : off < 0x30 ∨ (0x40 ≤ off ∧ off < 0x80) ∨ (0x100000 ≤ off ∧ off < 0x120000)
    ∨ (0x200000 ≤ off ∧ off < 0x2C0000) ∨ ReservedOffset off := by
  unfold ReservedOffset
  omega

theorem wordAligned_iff (bytes off : Nat) : wordAligned bytes off = true ↔ bytes = 4 ∧ off % 4 = 0 :=
  decide_eq_true_iff

theorem laneAligned_iff (bytes off : Nat) :
    laneAligned bytes off = true ↔ (bytes = 1 ∨ bytes = 2 ∨ bytes = 4) ∧ off % bytes = 0 :=
  decide_eq_true_iff

/-- Every aligned offset of the register range has a register. -/
theorem regAt_ne_none : ∀ off < 0x30, off % 4 = 0 → regAt off ≠ none := by decide

/-- The offset lies in the range of the place (R40). -/
def Place.InRange (off : Nat) : Place → Prop
  | .reg _ => off < 0x30
  | .pal _ => 0x40 ≤ off ∧ off < 0x80
  | .lbuf _ => 0x100000 ≤ off ∧ off < 0x120000
  | .fb _ => 0x200000 ≤ off ∧ off < 0x2C0000

theorem inRange_of_locate {bytes off : Nat} {p : Place} (h : locate bytes off = some p) : p.InRange off := by
  unfold locate at h
  split_ifs at h
  · obtain ⟨r, -, rfl⟩ := Option.map_eq_some_iff.mp h
    assumption
  all_goals
    obtain rfl := Option.some.inj h
    simp only [Place.InRange]
    omega

theorem locate_eq_none_of_reserved {off : Nat} (h : ReservedOffset off) (bytes : Nat) : locate bytes off = none := by
  cases hl : locate bytes off with
  | none => rfl
  | some p =>
    have hrange := inRange_of_locate hl
    unfold ReservedOffset at h
    cases p <;> simp only [Place.InRange] at hrange <;> omega

theorem locate_regRange_eq_none_iff {off : Nat} (h : off < 0x30) (bytes : Nat) :
    locate bytes off = none ↔ ¬ (bytes = 4 ∧ off % 4 = 0) := by
  rw [locate, if_pos h, ← wordAligned_iff]
  split
  case isTrue haligned => simp [haligned, regAt_ne_none off h ((wordAligned_iff ..).mp haligned).2]
  case isFalse haligned => simp [haligned]

theorem locate_palRange_eq_none_iff {off : Nat} (h : 0x40 ≤ off ∧ off < 0x80) (bytes : Nat) :
    locate bytes off = none ↔ ¬ (bytes = 4 ∧ off % 4 = 0) := by
  rw [locate, if_neg (by omega), if_neg (by omega), if_pos (by omega), ← wordAligned_iff]
  simp

theorem locate_lbufRange_eq_none_iff {off : Nat} (h : 0x100000 ≤ off ∧ off < 0x120000) (bytes : Nat) :
    locate bytes off = none ↔ ¬ ((bytes = 1 ∨ bytes = 2 ∨ bytes = 4) ∧ off % bytes = 0) := by
  rw [locate, if_neg (by omega), if_neg (by omega), if_neg (by omega), if_neg (by omega), if_pos (by omega),
    ← laneAligned_iff]
  simp

theorem locate_fbRange_eq_none_iff {off : Nat} (h : 0x200000 ≤ off ∧ off < 0x2C0000) (bytes : Nat) :
    locate bytes off = none ↔ ¬ ((bytes = 1 ∨ bytes = 2 ∨ bytes = 4) ∧ off % bytes = 0) := by
  rw [locate, if_neg (by omega), if_neg (by omega), if_neg (by omega), if_neg (by omega), if_neg (by omega),
    if_neg (by omega), if_pos (by omega), ← laneAligned_iff]
  simp

/-- An access reaches nothing exactly at a reserved offset, or with the wrong width or alignment for its range. -/
theorem locate_eq_none_iff (bytes off : Nat) :
    locate bytes off = none ↔ ReservedOffset off ∨ BadWordAccess bytes off ∨ BadLaneAccess bytes off := by
  unfold ReservedOffset BadWordAccess BadLaneAccess
  obtain h | h | h | h | h := offset_cases off
  · rw [locate_regRange_eq_none_iff h]
    omega
  · rw [locate_palRange_eq_none_iff h]
    omega
  · rw [locate_lbufRange_eq_none_iff h]
    omega
  · rw [locate_fbRange_eq_none_iff h]
    omega
  · exact iff_of_true (locate_eq_none_of_reserved h bytes) (.inl h)

/-! ### Which accesses the bus refuses (R41 to R43) -/

theorem busRead_eq_none_iff (s : State) (bytes off : Nat) : busRead s bytes off = none ↔ locate bytes off = none :=
  Option.map_eq_none_iff

/-- A write is refused where it reaches nothing, and where what it reaches is read-only: PAL and FB (R41, R42). -/
theorem busWrite_eq_none_iff (s : State) (bytes off : Nat) (v : Word) : busWrite s bytes off v = none
    ↔ locate bytes off = none ∨ (0x40 ≤ off ∧ off < 0x80) ∨ (0x200000 ≤ off ∧ off < 0x2C0000) := by
  unfold busWrite
  cases hl : locate bytes off with
  | none => simp
  | some p =>
    have hrange := inRange_of_locate hl
    cases p with
    | reg | lbuf =>
      simp only [Place.InRange] at hrange
      simp only [reduceCtorEq, false_or, false_iff]
      omega
    | pal => exact iff_of_true rfl (.inr (.inl hrange))
    | fb => exact iff_of_true rfl (.inr (.inr hrange))

/-! ### The fault of a refused access (R43) -/

/-- A turn of the host is its oldest action. -/
theorem hostTurn_cons {s : State} {a : HostAction} {rest : List HostAction} (hq : s.hostQueue = a :: rest) :
    hostTurn s = hostDo a { s with hostQueue := rest } := by
  rw [hostTurn, hq]

/-- While no completion is due the step is the oldest action of the host (log 1). -/
theorem step_eq_hostDo {s : State} {a : HostAction} {rest : List HostAction} (hturn : s.latch = .idle ∨ 0 < s.delay)
    (hq : s.hostQueue = a :: rest) : ∃ d, step s = hostDo a { s with delay := d, hostQueue := rest } := by
  obtain ⟨d, hstep⟩ := step_eq_hostTurn hturn
  exact ⟨d, hstep.trans (hostTurn_cons (s := { s with delay := d }) hq)⟩

theorem hostDo_read_of_none {s : State} {bytes : Nat} {off : Offset} (h : busRead s bytes off.toNat = none) :
    hostDo (.read bytes off) s = .fault (.busError (.read bytes off)) := by
  rw [hostDo, h]

theorem hostDo_write_of_none {s : State} {bytes : Nat} {off : Offset} {v : Word}
    (h : busWrite s bytes off.toNat v = none) :
    hostDo (.write bytes off v) s = .fault (.busError (.write bytes off v)) := by
  rw [hostDo, h]

/-- Settles O44: what the bus refuses is said by the access alone, so it is refused in the state of the host's turn
too. -/
theorem busErrorCases : Obligations.BusErrorCases := by
  refine ⟨fun s bytes off v => ⟨?_, ?_⟩, fun s bytes off rest hturn hq hnone => ?_,
    fun s bytes off v rest hturn hq hnone => ?_⟩
  · rw [busRead_eq_none_iff, locate_eq_none_iff]
  · rw [busWrite_eq_none_iff, locate_eq_none_iff, or_assoc, or_assoc]
  · obtain ⟨d, hstep⟩ := step_eq_hostDo hturn hq
    rw [busRead_eq_none_iff] at hnone
    rw [hstep, hostDo_read_of_none ((busRead_eq_none_iff ..).mpr hnone)]
  · obtain ⟨d, hstep⟩ := step_eq_hostDo hturn hq
    rw [busWrite_eq_none_iff] at hnone
    rw [hstep, hostDo_write_of_none ((busWrite_eq_none_iff ..).mpr hnone)]

end Sys2Proof.Machine

/-! ### Command words, turns of the host, and the reads of the host and of the commands (20_memory.md R44 to R47;
30_encoding.md R55, R57 to R59; 60_exceptions.md R88, R107; 70_reset_and_hazards.md R101) -/

namespace Sys2Proof.Machine

/-- Settles O2: eleven closed evaluations of the byte decoder. -/
theorem tableWordsDecode : Obligations.TableWordsDecode := by
  unfold Obligations.TableWordsDecode
  decide

/-! ### Turns of the host -/

/-- A silent host does nothing in its turn. -/
theorem hostTurn_nil {s : State} (hq : s.hostQueue = []) : hostTurn s = .next s := by
  rw [hostTurn, hq]

/-- Settles O5: an undue or idle step is a turn of the host, and a silent host does nothing in it. -/
theorem hostTurnsOtherwise : Obligations.HostTurnsOtherwise :=
  ⟨fun _ _ _ hl hd => step_waiting hl hd, fun _ hl => step_idle hl,
    fun _ hl hq => (step_idle hl).trans (hostTurn_nil hq)⟩

/-! ### Reads of the host (R44, R59) -/

/-- A read that answers gives the data of the bus. -/
theorem hostDo_read_eq_next {s t : State} {bytes : Nat} {off : Offset} (h : hostDo (.read bytes off) s = .next t) :
    ∃ v, busRead s bytes off.toNat = some v ∧ t = s.answerRead v := by
  rw [hostDo] at h
  split at h
  case h_1 v hv => exact ⟨v, hv, (Host.Outcome.next.inj h).symm⟩
  case h_2 => cases h

/-- BUSY is bit 0 of STATUS (R20). -/
theorem readReg_status_getLsbD_zero (s : State) : (readReg s .status).getLsbD 0 = s.busy := by
  rw [readReg, Status.word, BitVec.getLsbD_append]
  simp

/-- One poll of `wait`: STATUS is the answer, and the poll stays queued while BUSY = 1 (R59). -/
theorem hostDo_wait (s : State) : hostDo .wait s = .next { s with
    response := .data (readReg s .status)
    hostQueue := if s.busy then .wait :: s.hostQueue else s.hostQueue } := by
  rw [hostDo, readReg_status_getLsbD_zero]

/-- Settles O46: a read is the bus's answer to the state without it, which has the same registers and buffers. -/
theorem hostReadsHaveNoSideEffect : Obligations.HostReadsHaveNoSideEffect := by
  refine ⟨fun s t bytes off rest hq h => ?_, fun s t rest hq h => ?_⟩
  · rw [hostTurn_cons hq] at h
    obtain ⟨v, hv, rfl⟩ := hostDo_read_eq_next h
    exact ⟨rfl, v, hv, rfl⟩
  · rw [hostTurn_cons hq, hostDo_wait] at h
    obtain rfl := Host.Outcome.next.inj h
    exact ⟨rfl, fun hb => (if_pos hb).trans hq.symm, fun hb => if_neg (hb ▸ Bool.false_ne_true)⟩

/-! ### Reads of SRC (R46, R47, R107; log 6) -/

theorem State.memRead_of_le {s : State} {a : Nat} (h : s.srcLen.toNat ≤ a) : s.memRead a = none :=
  if_neg (Nat.not_lt_of_le h)

theorem State.memRead_of_lt {s : State} {a : Nat} (h : a < s.srcLen.toNat) :
    s.memRead a = some (if s.srcTouched then Config.srcDraw s.draws a else s.srcByte a) :=
  if_pos h

/-- A store of the host sets exactly its byte of SRC (R46). -/
theorem State.srcByte_srcStore (s : State) (a : Word) (b : Byte) (x : Nat) :
    (s.srcStore a b).srcByte x = if x = a.toNat then b else s.srcByte x := by
  rw [State.srcByte, State.srcStore_src, Memory.byteAt_writeRange]
  by_cases h : x = a.toNat
  · simp [h]
  · rw [if_neg (by omega), if_neg h, State.srcByte]

/-- A store below SRC_LEN under a command frees the bytes that command reads (R107; log 6). -/
theorem State.srcStore_srcTouched_of_lt {s : State} {a : Word} (hb : s.busy = true) (ha : a.toNat < s.srcLen.toNat)
    (b : Byte) : (s.srcStore a b).srcTouched = true := by
  simp [hb, ha]

theorem State.memRead_srcStore_of_lt {s : State} {a : Word} (hb : s.busy = true) (ha : a.toNat < s.srcLen.toNat)
    (b : Byte) {x : Nat} (hx : x < s.srcLen.toNat) :
    (s.srcStore a b).memRead x = some (Config.srcDraw s.draws x) := by
  rw [State.memRead_of_lt (s := s.srcStore a b) hx, if_pos (State.srcStore_srcTouched_of_lt hb ha b),
    State.srcStore_draws]

/-- A store while idle, or at or beyond SRC_LEN, frees nothing (log 6). -/
theorem State.srcStore_srcTouched_of_idle_or_le {s : State} {a : Word}
    (h : s.busy = false ∨ s.srcLen.toNat ≤ a.toNat) (b : Byte) : (s.srcStore a b).srcTouched = s.srcTouched := by
  obtain hidle | hle := h
  · simp [hidle]
  · simp [Nat.not_lt_of_le hle]

/-- Settles O49: a read of SRC by the three cases of R47 and R107, before and after a store of the host. -/
theorem srcReads : Obligations.SrcReads := by
  refine ⟨fun s a h => s.memRead_of_le h, fun s a h huntouched => ?_, fun s a b rest hq => ?_⟩
  · rw [State.memRead_of_lt h, huntouched]
    rfl
  · refine ⟨_, hostTurn_cons hq, ?_, fun x hx => ?_, rfl,
      fun hb ha x hx => State.memRead_srcStore_of_lt (s := { s with hostQueue := rest }) hb ha b hx,
      fun h => State.srcStore_srcTouched_of_idle_or_le h b⟩
    · rw [State.srcByte_srcStore, if_pos rfl]
    · rw [State.srcByte_srcStore, if_neg hx]
      rfl

end Sys2Proof.Machine

/-! ### The encoding of the commands, the completion of illegal words, and the writes column (30_encoding.md R55 to R58) -/

namespace Sys2Proof.Machine

/-! ### Fields of a command word (R55, R57) -/

@[simp] theorem mbzField_encode (i : Instr) : mbzField (encode i) = 0 := BitVec.extractLsb'_append_eq_left

@[simp] theorem opField_encode (i : Instr) : opField (encode i) = opOf i := BitVec.extractLsb'_append_eq_right

@[simp] theorem opcode_opOf (i : Instr) : opcode (opOf i).toNat = .ok i := by cases i <;> rfl

/-- The decoder reads back the encoder's word. -/
@[simp] theorem decode_encode (i : Instr) : decode (encode i) = .ok i := by
  rw [decode, if_pos (mbzField_encode i), opField_encode, opcode_opOf]

/-- A command is decoded from exactly its own word (R57). -/
theorem decode_eq_ok_iff (w : Word) (i : Instr) : decode w = .ok i ↔ w = encode i :=
  ⟨eq_encode_of_decode, fun h => h ▸ decode_encode i⟩

/-- Settles O1: `decode` and `encode` are inverse to each other, and the seven words are evaluated. -/
theorem commandWordsExact : Obligations.CommandWordsExact :=
  ⟨decode_eq_ok_iff, by decide⟩

/-! ### Illegal words (R58) -/

/-- OP is reserved exactly from 7 on. -/
theorem opcode_eq_error_iff (n : Nat) : (∃ e, opcode n = .error e) ↔ 7 ≤ n := by
  match n with
  | 0 | 1 | 2 | 3 | 4 | 5 | 6 => simp [opcode]
  | n + 7 => exact ⟨fun _ => Nat.le_add_left 7 n, fun _ => ⟨.reservedOp, rfl⟩⟩

/-- A word is rejected exactly for one of the two reasons of R58. -/
theorem decode_eq_error_iff (w : Word) : (∃ e, decode w = .error e) ↔ mbzField w ≠ 0 ∨ 7 ≤ (opField w).toNat := by
  by_cases hmbz : mbzField w = 0
  · rw [decode, if_pos hmbz, opcode_eq_error_iff]
    simp [hmbz]
  · rw [decode, if_neg hmbz]
    exact ⟨fun _ => .inl hmbz, fun _ => ⟨.mbzNotZero, rfl⟩⟩

/-- A word is one of the seven command words exactly when the decoder does not reject it. -/
theorem exists_eq_encode_iff (w : Word) : (∃ i, w = encode i) ↔ ¬ ∃ e, decode w = .error e := by
  simp only [← decode_eq_ok_iff]
  cases decode w <;> simp

theorem engineStep_of_ok {w : Word} {i : Instr} (h : decode w = .ok i) (s : State) : engineStep w s = exec i s := by
  rw [engineStep, h]

theorem engineStep_of_error {w : Word} (h : ∃ e, decode w = .error e) (s : State) :
    engineStep w s = .next (endedWith s 1) := by
  obtain ⟨e, he⟩ := h
  rw [engineStep, he]
  rfl

/-- While idle a write to CMD accepts its word, whatever it is (R19, R87). -/
theorem busWrite_cmd_idle {s : State} (hidle : s.latch = .idle) (w : Word) :
    busWrite s 4 0x04 w = some (s.accept w) := by
  refine (busWrite_reg s .cmd w).trans ?_
  simp [writeReg, (State.not_busy_iff s).mpr hidle]

/-- Settles O3: the illegal words are those the decoder rejects, and acceptance does not look at the word. -/
theorem illegalWordsEndWithErr1 : Obligations.IllegalWordsEndWithErr1 :=
  ⟨fun s w hidle => ⟨s.accept w, busWrite_cmd_idle hidle w, rfl⟩,
    fun s w hillegal hl hd => (step_due hl hd).trans (engineStep_of_error ((decode_eq_error_iff w).mpr hillegal) s),
    fun w => (exists_eq_encode_iff w).trans (not_congr (decode_eq_error_iff w))⟩

/-! ### The due step (R57, R88) -/

/-- The word the host hands over as a number is the word that pends (log 10). -/
theorem State.withFetchWord_latch_toNat (s : State) (w : Word) : (s.withFetchWord 32 w.toNat).latch = .pending w := by
  rw [State.withFetchWord_latch, Nat.mod_eq_of_lt w.isLt, BitVec.ofNat_toNat, BitVec.setWidth_eq]

theorem step_due_of_ok {s : State} {w : Word} {i : Instr} (hl : s.latch = .pending w) (hd : s.delay = 0)
    (hi : decode w = .ok i) : step s = exec i s :=
  (step_due hl hd).trans (engineStep_of_ok hi s)

/-- Settles O4: the second clause is the first at a state whose latch holds the encoder's word. -/
theorem dueStepRunsDecodedCommand : Obligations.DueStepRunsDecodedCommand :=
  ⟨fun _ _ _ => step_due_of_ok,
    fun s i => step_due_of_ok (s.withFetchWord_latch_toNat (encode i)) rfl (decode_encode i)⟩

/-! ### The writes column (R20, R56, R68) -/

/-- The decoder chosen by FORMAT writes FB only (R83). -/
theorem formatInto_frame (s : State) : ∃ fb, formatInto s = { s with fb := fb } := by
  obtain he | he := formatInto_cases s <;> exact ⟨_, he⟩

/-- Only DEMUX and FRAME have an effect on LBUF and on SHORT (R68). -/
theorem effectOf_lbuf_short {i : Instr} (hdemux : i ≠ .demux) (hframe : i ≠ .frame) (s : State) :
    (effectOf i s).lbuf = s.lbuf ∧ (effectOf i s).status.short = s.status.short := by
  cases i with
  | demux => exact absurd rfl hdemux
  | frame => exact absurd rfl hframe
  | nop | ldpal | decbg | decspr => exact ⟨rfl, rfl⟩
  | decode =>
    obtain ⟨_, he⟩ := formatInto_frame s
    simp [effectOf, he]

/-- Only LDPAL, DEMUX and FRAME move PCUR. -/
theorem effectOf_pcur {i : Instr} (hldpal : i ≠ .ldpal) (hdemux : i ≠ .demux) (hframe : i ≠ .frame) (s : State) :
    (effectOf i s).pcur = s.pcur := by
  cases i with
  | ldpal => exact absurd rfl hldpal
  | demux => exact absurd rfl hdemux
  | frame => exact absurd rfl hframe
  | nop | decbg | decspr => rfl
  | decode =>
    obtain ⟨_, he⟩ := formatInto_frame s
    simp [effectOf, he]

/-- The commands that decode no frame are NOP, LDPAL and DEMUX. -/
theorem eq_nop_or_ldpal_or_demux {i : Instr} (hdecbg : i ≠ .decbg) (hdecspr : i ≠ .decspr) (hdecode : i ≠ .decode)
    (hframe : i ≠ .frame) : i = .nop ∨ i = .ldpal ∨ i = .demux := by
  cases i <;> simp at *

/-- Settles O14: a command in error writes none of them, and else each has a lemma about the effects. -/
theorem commandsWriteOnlyTheirOwn : Obligations.CommandsWriteOnlyTheirOwn := by
  intro i s t h
  obtain ⟨_, -, rfl, -⟩ | ⟨-, rfl, -⟩ := exec_cases h
  · simp
  · exact ⟨fun hdemux hframe => effectOf_lbuf_short hdemux hframe s,
      fun hdecbg hdecspr hdecode hframe => effectOf_fb (eq_nop_or_ldpal_or_demux hdecbg hdecspr hdecode hframe) s,
      fun hldpal => effectOf_pal hldpal s,
      fun hldpal hdemux hframe => effectOf_pcur hldpal hdemux hframe s⟩

end Sys2Proof.Machine

/-! ### LDPAL: the colour of two raw bytes and the palette load (41_palette.md R60 to R63) -/

namespace Sys2Proof.Machine

/-! ### The colour of two raw bytes (R60, R61) -/

/-- The widened channel fits its byte, so nothing wraps (R60). -/
theorem toNat_scale3 (v : BitVec 3) : (scale3 v).toNat = 255 * v.toNat / 7 :=
  (BitVec.toNat_ofNat ..).trans (Nat.mod_eq_of_lt (by have := v.isLt; omega))

/-- The green bits: `hi[0]` above the top two bits of `lo` (R61). -/
theorem toNat_greenField (lo hi : Byte) :
    (hi.extractLsb' 0 1 ++ lo.extractLsb' 6 2).toNat = 4 * (hi.toNat % 2) + lo.toNat / 64 := by
  have hlo := lo.isLt
  simp only [toNat_append_eq_add, BitVec.extractLsb'_toNat, Nat.shiftRight_eq_div_pow]
  omega

/-- Settles O19: each channel widens its field of the raw bytes. -/
theorem paletteColourChannels : Obligations.PaletteColourChannels := by
  intro lo hi
  have red : (lo.extractLsb' 3 3).toNat = lo.toNat / 8 % 8 := by
    rw [BitVec.extractLsb'_toNat, Nat.shiftRight_eq_div_pow]
  have blue : (lo.extractLsb' 0 3).toNat = lo.toNat % 8 := BitVec.extractLsb'_toNat ..
  simp only [paletteColour, toNat_scale3, red, toNat_greenField, blue, and_self]

/-! ### The bytes read (R47, R62, R107) -/

/-- The statements' reading of a SRC byte is the engine's `fetch`. -/
theorem State.fetch_eq_sourceByte (s : State) (a : Nat) : s.fetch a = sourceByte s a := by
  obtain h | h := Nat.lt_or_ge a s.srcLen.toNat
  · rw [State.fetch, State.memRead_of_lt h, sourceByte, if_neg (Nat.not_le_of_lt h), Option.getD_some]
  · rw [State.fetch, State.memRead_of_le h, sourceByte, if_pos h, Option.getD_none]

/-- newpal[i] of R62 in the statements' words. -/
theorem newPalEntry_eq (s : State) (i : Nat) : newPalEntry s i
    = paletteColour (sourceByte s (s.pcur.toNat + 2 * i)) (sourceByte s (s.pcur.toNat + 2 * i + 1)) := by
  rw [← State.fetch_eq_sourceByte, ← State.fetch_eq_sourceByte]
  rfl

/-! ### The load (R62, R63) -/

/-- Where the palette ends at or below SRC_LEN, the advanced cursor does not wrap (R63). -/
theorem toNat_palInto_pcur {s : State} (h : s.pcur.toNat + 32 ≤ s.srcLen.toNat) :
    (palInto s).pcur.toNat = s.pcur.toNat + 32 :=
  (BitVec.toNat_ofNat ..).trans (Nat.mod_eq_of_lt (Nat.lt_of_le_of_lt h s.srcLen.isLt))

theorem exec_ldpal_of_le {s : State} (h : s.pcur.toNat + 32 ≤ s.srcLen.toNat) :
    exec .ldpal s = .next ((palInto s).finish 0) := by
  have hcheck : palShort s = false := (palShort_false_iff s).mpr h
  simp [exec_eq_complete, errorOf, effectOf, hcheck]

theorem exec_ldpal_of_lt {s : State} (h : s.srcLen.toNat < s.pcur.toNat + 32) :
    exec .ldpal s = .next (endedWith s 8) := by
  have hcheck : palShort s = true := by
    rw [← Bool.not_eq_false, palShort_false_iff]
    exact Nat.not_le_of_lt h
  rw [exec_eq_complete, errorOf, firstError_cons, hcheck]
  rfl

/-- Settles O20: the check decides between the effects of R62 and R63 and PAL_SHORT alone. -/
theorem ldpalLoadsPalette : Obligations.LdpalLoadsPalette := by
  refine fun s => ⟨fun h => ⟨_, exec_ldpal_of_le h, fun i => ?_, toNat_palInto_pcur h, rfl⟩, exec_ldpal_of_lt⟩
  exact (newPal_get s i).trans (newPalEntry_eq s i)

end Sys2Proof.Machine

/-! ### DEMUX: the closed forms, the checks, and the chunk-by-chunk procedure (42_demux.md R64 to R71; log 14) -/

namespace Sys2Proof.Machine

/-! ### Completion with and without an error (R88, R89) -/

theorem exec_of_errorOf_none {i : Instr} {s : State} (h : errorOf i s = none) :
    exec i s = .next ((effectOf i s).finish 0) := by
  rw [exec_eq_complete, h, complete_none]

theorem exec_of_errorOf_some {i : Instr} {s : State} {e : CmdError} (h : errorOf i s = some e) :
    exec i s = .next (endedWith s e.code) := by
  rw [exec_eq_complete, h]
  rfl

/-! ### The closed forms (R65 to R68) -/

theorem State.cursor_add_demuxAdvance (s : State) (n : Nat) : s.cursor + s.demuxAdvance n = cursorAfter s n :=
  (Nat.add_assoc ..).symm

/-- a(k) counts the logical bytes before byte k and one gap for each whole chunk among them (R65). -/
theorem addressOf_eq (s : State) (k : Nat) : addressOf s k = s.pcur.toNat + k + k / s.chunk.toNat * s.gap.toNat := by
  have hk := Nat.div_add_mod' k s.chunk.toNat
  rw [addressOf, Nat.mul_add]
  omega

/-- The physical addresses rise (R65). -/
theorem addressOf_strictMono (s : State) : StrictMono (addressOf s) := by
  intro k k' h
  have hgaps : k / s.chunk.toNat * s.gap.toNat ≤ k' / s.chunk.toNat * s.gap.toNat :=
    Nat.mul_le_mul_right _ (Nat.div_le_div_right h.le)
  rw [addressOf_eq, addressOf_eq]
  omega

theorem zeroFilled_iff (s : State) (n : Nat) :
    zeroFilled s n = true ↔ 0 < n ∧ s.srcLen.toNat ≤ addressOf s (n - 1) :=
  decide_eq_true_iff

/-- As the addresses rise, some byte is zero-filled exactly when the last one is (R68). -/
theorem zeroFilled_iff_exists (s : State) (n : Nat) :
    zeroFilled s n = true ↔ ∃ k < n, s.srcLen.toNat ≤ addressOf s k := by
  rw [zeroFilled_iff]
  refine ⟨fun ⟨hn, h⟩ => ⟨n - 1, by omega, h⟩, fun ⟨k, hk, h⟩ => ⟨by omega, h.trans ?_⟩⟩
  exact (addressOf_strictMono s).monotone (by omega)

/-- A cursor that CURSOR_RANGE lets through does not wrap (R67, R69). -/
theorem toNat_demuxInto_pcur {s : State} {n : Nat} (h : cursorAfter s n ≤ 0xFFFFFFFF) :
    (demuxInto s n).pcur.toNat = cursorAfter s n := by
  rw [demuxInto_pcur, State.cursor_add_demuxAdvance, BitVec.toNat_ofNat, Nat.mod_eq_of_lt (by omega)]

/-- The effects of a demultiplex in the statements' words (R66, R67, R68). -/
theorem demultiplexed_demuxInto {s : State} {n : Nat} (h : cursorAfter s n ≤ 0xFFFFFFFF) :
    Demultiplexed s (demuxInto s n) n := by
  refine ⟨fun k hk => ?_, fun k hk => ?_, toNat_demuxInto_pcur h, ?_⟩
  · rw [demuxInto_lbufByte, if_pos hk, State.fetch_eq_sourceByte]
    rfl
  · rw [demuxInto_lbufByte, if_neg (Nat.not_lt_of_le hk)]
  · rw [demuxInto_status, Status.afterDemux_short, Bool.or_eq_true, zeroFilled_iff]

/-! ### The checks (R69, R92) -/

theorem badConfig_iff (s : State) : badConfig s = true ↔ ¬ ConfigOk s := by
  rw [← Bool.not_eq_false, badConfig_false_iff, ConfigOk]

theorem lenRange_iff (n : Nat) : lenRange n = true ↔ 131072 < n := decide_eq_true_iff

theorem cursorRange_iff (s : State) (n : Nat) : cursorRange s n = true ↔ 0xFFFFFFFF < cursorAfter s n := by
  rw [cursorRange, State.cursor_add_demuxAdvance, decide_eq_true_iff]

/-- The checks of DEMUX all pass. -/
theorem errorOf_demux_eq_none_iff (s : State) : errorOf .demux s = none
    ↔ ConfigOk s ∧ s.dmxLen.toNat ≤ 131072 ∧ cursorAfter s s.dmxLen.toNat ≤ 0xFFFFFFFF := by
  rw [errorOf, firstError_eq_none_iff]
  simp [badConfig_false_iff, lenRange_false_iff, cursorRange_false_iff,
    State.cursor_add_demuxAdvance, State.demuxN, ConfigOk]

/-- FRAME makes the last two checks of a demultiplex; its geometry bounds the length (R84, R92). -/
theorem configOk_and_cursor_of_errorOf_frame {s : State} (h : errorOf .frame s = none) :
    ConfigOk s ∧ cursorAfter s s.frameN ≤ 0xFFFFFFFF := by
  rw [errorOf, firstError_eq_none_iff] at h
  have hconfig := h (badConfig s, .badConfig) (by simp)
  have hcursor := h (cursorRange s s.frameN, .cursorRange) (by simp)
  rw [badConfig_false_iff] at hconfig
  rw [cursorRange_false_iff, State.cursor_add_demuxAdvance] at hcursor
  exact ⟨hconfig, hcursor⟩

theorem exec_demux_of_checks {s : State} (hconfig : ConfigOk s) (hlen : s.dmxLen.toNat ≤ 131072)
    (hcursor : cursorAfter s s.dmxLen.toNat ≤ 0xFFFFFFFF) :
    exec .demux s = .next ((demuxInto s s.dmxLen.toNat).finish 0) :=
  exec_of_errorOf_none ((errorOf_demux_eq_none_iff s).mpr ⟨hconfig, hlen, hcursor⟩)

/-- Settles O21: the effects are those of `demuxInto`, and the end of the command adds only STATUS and the latch. -/
theorem demuxResult : Obligations.DemuxResult :=
  fun _ hconfig hlen hcursor =>
    ⟨_, exec_demux_of_checks hconfig hlen hcursor, demultiplexed_demuxInto hcursor, rfl⟩

/-- Settles O22: the first check that fails names the error. -/
theorem demuxChecksInOrder : Obligations.DemuxChecksInOrder := by
  refine fun s => ⟨fun hconfig => ?_, fun hconfig hlen => ?_, fun hconfig hlen hcursor => ?_⟩
  · exact exec_of_errorOf_some (e := .badConfig) (if_pos ((badConfig_iff s).mpr hconfig))
  · have h1 := (badConfig_false_iff s).mpr hconfig
    have h2 : lenRange s.demuxN = true := (lenRange_iff _).mpr hlen
    exact exec_of_errorOf_some (e := .lenRange) (by simp [errorOf, h1, h2])
  · have h1 := (badConfig_false_iff s).mpr hconfig
    have h2 : lenRange s.demuxN = false := (lenRange_false_iff _).mpr hlen
    have h3 : cursorRange s s.demuxN = true := (cursorRange_iff s _).mpr hcursor
    exact exec_of_errorOf_some (e := .cursorRange) (by simp [errorOf, h1, h2, h3])

/-- Settles O23: the addresses rise, so every byte after a short read is one too. -/
theorem zeroFillIsATail : Obligations.ZeroFillIsATail := by
  refine fun s hconfig hlen hcursor => ⟨fun _ _ h => addressOf_strictMono s h, fun t k k' hexec hk hkk hk' => ?_⟩
  obtain rfl := Host.Outcome.next.inj ((exec_demux_of_checks hconfig hlen hcursor).symm.trans hexec)
  obtain ⟨hbytes, -, -, hshort⟩ := demultiplexed_demuxInto hcursor
  have habsent : s.srcLen.toNat ≤ addressOf s k' := hk.trans ((addressOf_strictMono s).monotone hkk)
  refine ⟨(hbytes k' hk').trans (if_pos habsent), hshort.mpr (.inr ?_)⟩
  rw [← zeroFilled_iff, zeroFilled_iff_exists]
  exact ⟨k', hk', habsent⟩

/-! ### The procedure of R64 -/

/-- A chunk and a gap further on stands the next chunk (R65). -/
theorem addressOf_add_chunk {s : State} (hchunk : 0 < s.chunk.toNat) (k : Nat) :
    addressOf s (k + s.chunk.toNat) = addressOf s k + s.chunk.toNat + s.gap.toNat := by
  rw [addressOf_eq, addressOf_eq, Nat.add_div_right k hchunk, Nat.succ_mul]
  omega

section Chunk
/-! A logical byte number `k` at the start of a chunk. -/
variable {s : State} {k : Nat} (hstart : s.chunk.toNat ∣ k)
include hstart

/-- Consecutive bytes of a chunk are consecutive in SRC (R65). -/
theorem addressOf_add_of_lt {t : Nat} (ht : t < s.chunk.toNat) : addressOf s (k + t) = addressOf s k + t := by
  rw [addressOf_eq, addressOf_eq, Nat.add_div_of_dvd_right hstart, Nat.div_eq_of_lt ht, Nat.add_zero]
  omega

/-- The cursor after the whole chunks before `k` and `r` bytes of a partial one (R67). -/
theorem cursorAfter_add_of_lt {r : Nat} (hr : r < s.chunk.toNat) : cursorAfter s (k + r)
    = addressOf s k + if 0 < r ∨ s.ctrl.zskip = true then s.sector.toNat else 0 := by
  have hmod : (k + r) % s.chunk.toNat = r := by
    rw [Nat.add_mod, Nat.mod_eq_zero_of_dvd hstart, Nat.zero_add, Nat.mod_mod, Nat.mod_eq_of_lt hr]
  rw [cursorAfter, addressOf, hmod, Nat.add_div_of_dvd_right hstart, Nat.div_eq_of_lt hr,
    Nat.mod_eq_zero_of_dvd hstart, Nat.add_zero, Nat.add_zero]

end Chunk

/-- The first `m` logical bytes, and only these, are in LBUF, and a short read among them is noted. -/
structure DemuxLoop.Copied (s : State) (m : Nat) (d : DemuxLoop) : Prop where
  lbuf : ∀ a, Memory.byteAt d.lbuf a = Memory.byteAt (demuxInto s m).lbuf a
  short : d.short = true ↔ ∃ k < m, s.srcLen.toNat ≤ addressOf s k

/-- The loop of R64, for `n` bytes in all, stands at the start of a chunk. -/
structure DemuxLoop.AtChunk (s : State) (n : Nat) (d : DemuxLoop) : Prop where
  start : s.chunk.toNat ∣ d.k
  cursor : d.p = addressOf s d.k
  total : d.k + d.rem = n
  copied : d.Copied s d.k

/-- A run of reads from the right addresses extends what is copied. -/
theorem DemuxLoop.Copied.copyRun {s : State} {d : DemuxLoop} (h : d.Copied s d.k) {m : Nat}
    (haddr : ∀ t < m, addressOf s (d.k + t) = d.p + t) : (copyRun s d m).Copied s (d.k + m) where
  lbuf a := by
    rw [Machine.copyRun, demuxInto_lbuf, Memory.byteAt_writeRange, Memory.byteAt_writeRange, h.lbuf, demuxInto_lbuf,
      Memory.byteAt_writeRange]
    rcases Nat.lt_or_ge a d.k with hlt | hge
    · simp [hlt, Nat.not_le_of_lt hlt, Nat.lt_add_right m hlt]
    · obtain ⟨t, rfl⟩ := Nat.exists_eq_add_of_le hge
      by_cases ht : t < m
      · have : s.demuxAddr (d.k + t) = d.p + t := haddr t ht
        simp [ht, this]
      · simp [ht]
  short := by
    have hrun : (∃ t < m, s.isShort (d.p + t) = true) ↔ ∃ t < m, s.srcLen.toNat ≤ addressOf s (d.k + t) :=
      exists_congr fun t => and_congr_right fun ht => by rw [State.isShort_iff, haddr t ht, State.srcL]
    simp only [Machine.copyRun, Bool.or_eq_true, h.short, List.any_eq_true, List.mem_range, hrun]
    constructor
    · rintro (⟨k, hk, hs⟩ | ⟨t, ht, hs⟩)
      · exact ⟨k, by omega, hs⟩
      · exact ⟨d.k + t, by omega, hs⟩
    · rintro ⟨k, hk, hs⟩
      rcases Nat.lt_or_ge k d.k with hlt | hge
      · exact .inl ⟨k, hlt, hs⟩
      · obtain ⟨t, rfl⟩ := Nat.exists_eq_add_of_le hge
        exact .inr ⟨t, by omega, hs⟩

/-- At the start of a chunk a run of at most one chunk reads the right addresses. -/
theorem DemuxLoop.AtChunk.copied_run {s : State} {n : Nat} {d : DemuxLoop} (h : d.AtChunk s n) {m : Nat}
    (hm : m ≤ s.chunk.toNat) : (copyRun s d m).Copied s (d.k + m) :=
  h.copied.copyRun fun t ht => by rw [addressOf_add_of_lt h.start (by omega), h.cursor]

/-- A round of `while rem >= C` leads to the start of the next chunk. -/
theorem DemuxLoop.AtChunk.next_round {s : State} {n : Nat} {d : DemuxLoop} (h : d.AtChunk s n)
    (hchunk : 0 < s.chunk.toNat) (hrem : s.chunk.toNat ≤ d.rem) :
    DemuxLoop.AtChunk s n { copyRun s d s.chunkC with
      p := d.p + s.chunkC + s.gapG, k := d.k + s.chunkC, rem := d.rem - s.chunkC } where
  start := (Nat.dvd_add_right h.start).mpr (Nat.dvd_refl _)
  cursor := by
    rw [h.cursor]
    exact (addressOf_add_chunk hchunk d.k).symm
  total := by
    have := h.total
    simp only [State.chunkC]
    omega
  copied :=
    have hrun := h.copied_run (Nat.le_refl s.chunk.toNat)
    ⟨hrun.lbuf, hrun.short⟩

/-- The whole chunks are copied and less than a chunk remains. -/
theorem DemuxLoop.AtChunk.demuxChunks {s : State} {n : Nat} (hchunk : 0 < s.chunk.toNat) {fuel : Nat} {d : DemuxLoop}
    (h : d.AtChunk s n) (hfuel : d.rem ≤ fuel) :
    (demuxChunks s fuel d).AtChunk s n ∧ (demuxChunks s fuel d).rem < s.chunk.toNat := by
  induction fuel generalizing d with
  | zero => exact ⟨h, by rw [Machine.demuxChunks]; omega⟩
  | succ fuel ih =>
    rw [Machine.demuxChunks]
    split
    next hrem => exact ih (h.next_round hchunk hrem) (by simp only [State.chunkC] at *; omega)
    next hrem => exact ⟨h, Nat.lt_of_not_le hrem⟩

theorem atChunk_init (s : State) (n : Nat) :
    DemuxLoop.AtChunk s n { p := s.cursor, rem := n, k := 0, short := false, lbuf := s.lbuf } where
  start := Nat.dvd_zero _
  cursor := by simp [addressOf_eq, State.cursor]
  total := Nat.zero_add n
  copied := {
    lbuf := fun a => by simp [Memory.byteAt_writeRange]
    short := by simp }

/-- The procedure of R64 copies all `n` bytes and ends at the cursor of R67. -/
theorem demuxProcedure_copied {s : State} (h : ConfigOk s) (n : Nat) :
    (demuxProcedure s n).Copied s n ∧ (demuxProcedure s n).p = cursorAfter s n := by
  obtain ⟨hchunk, hsector⟩ := h
  obtain ⟨hd, hrem⟩ := (atChunk_init s n).demuxChunks (Nat.pos_of_ne_zero hchunk) (Nat.le_refl n)
  rw [demuxProcedure]
  generalize demuxChunks s n _ = d at hd hrem
  have hcursor := cursorAfter_add_of_lt hd.start hrem
  rw [hd.total, ← hd.cursor] at hcursor
  have hcopied := hd.copied_run hrem.le
  rw [hd.total] at hcopied
  by_cases hlast : 0 < d.rem ∨ s.ctrl.zskip = true
  · rw [if_pos hlast] at hcursor
    simp only [if_pos hlast]
    refine ⟨⟨hcopied.lbuf, hcopied.short⟩, ?_⟩
    rw [hcursor, State.sectorS]
    omega
  · have hzero : d.k = n := by have := hd.total; omega
    rw [if_neg hlast] at hcursor
    simp only [if_neg hlast]
    exact ⟨hzero ▸ hd.copied, hcursor.symm⟩

/-- Settles O24: after every round the loop stands at the start of a chunk, with the bytes before it copied. -/
theorem demuxLoopMeetsClosedForms : Obligations.DemuxLoopMeetsClosedForms := by
  intro s n h
  obtain ⟨hcopied, hcursor⟩ := demuxProcedure_copied h n
  exact ⟨hcopied.lbuf, hcursor, by rw [hcopied.short, ← zeroFilled_iff_exists, zeroFilled_iff]⟩

/-! ### Whole sectors (R67, R71, R84) -/

/-- With C + G = S every chunk begun takes one sector, and so does ZSKIP after a whole number of chunks. -/
theorem cursorAfter_eq_sectors {s : State} (hchunk : 0 < s.chunk.toNat)
    (hsum : s.chunk.toNat + s.gap.toNat = s.sector.toNat) (n : Nat) : cursorAfter s n = s.pcur.toNat
      + s.sector.toNat * ((n + s.chunk.toNat - 1) / s.chunk.toNat
          + (if n % s.chunk.toNat = 0 ∧ s.ctrl.zskip = true then 1 else 0)) := by
  have hlast : s.chunk.toNat - 1 < s.chunk.toNat := Nat.sub_one_lt_of_lt hchunk
  have hceil : (n + s.chunk.toNat - 1) / s.chunk.toNat
      = n / s.chunk.toNat + if 0 < n % s.chunk.toNat then 1 else 0 := by
    rw [Nat.add_sub_assoc hchunk, Nat.add_div hchunk, Nat.div_eq_of_lt hlast, Nat.mod_eq_of_lt hlast, Nat.add_zero]
    exact congrArg _ (if_congr (by omega) rfl rfl)
  rw [cursorAfter, hsum, Nat.mul_comm (n / _), Nat.add_assoc]
  rcases Nat.eq_zero_or_pos (n % s.chunk.toNat) with hr | hr
  · cases hz : s.ctrl.zskip <;> simp [hceil, hr, Nat.mul_succ]
  · simp [hceil, hr, hr.ne', Nat.mul_succ]

theorem formatInto_pcur (s : State) : (formatInto s).pcur = s.pcur := by
  obtain ⟨_, he⟩ := formatInto_frame s
  rw [he]

/-- Settles O25: a command that ends with ERR = 0 passed its checks, so PCUR is the unwrapped p0 + adv(N). -/
theorem advanceByWholeSectors : Obligations.AdvanceByWholeSectors := by
  refine fun s t hsum herr => ⟨fun hexec => ?_, fun hexec => ?_⟩
  · obtain ⟨-, -, -, hne⟩ | ⟨hchecks, rfl, -⟩ := exec_cases hexec
    · exact absurd herr hne
    · obtain ⟨hconfig, -, hcursor⟩ := (errorOf_demux_eq_none_iff s).mp hchecks
      rw [← cursorAfter_eq_sectors (Nat.pos_of_ne_zero hconfig.1) hsum]
      exact toNat_demuxInto_pcur hcursor
  · obtain ⟨-, -, -, hne⟩ | ⟨hchecks, rfl, -⟩ := exec_cases hexec
    · exact absurd herr hne
    · obtain ⟨hconfig, hcursor⟩ := configOk_and_cursor_of_errorOf_frame hchecks
      rw [← cursorAfter_eq_sectors (Nat.pos_of_ne_zero hconfig.1) hsum, State.finish_pcur, effectOf, formatInto_pcur]
      exact toNat_demuxInto_pcur hcursor

end Sys2Proof.Machine

/-! ### DECBG: the index of a tile pixel, the shifting row, and the decoded frame (43_tile.md R72 to R76; R80 for the
16-bit row; R35, R91) -/

namespace Sys2Proof.Machine

/-! ### The index of four plane bits (R72) -/

/-- A bit of a plane byte or word, as the number 0 or 1. -/
theorem toNat_getLsbD {w : Nat} (x : BitVec w) (i : Nat) : (x.getLsbD i).toNat = x.toNat / 2 ^ i % 2 := by
  rw [← BitVec.testBit_toNat, Nat.toNat_testBit]

/-- Plane p has weight 2^p in the index (R72). -/
theorem toNat_planeIndex (b0 b1 b2 b3 : Bool) :
    (planeIndex b0 b1 b2 b3).toNat = b0.toNat + 2 * b1.toNat + 4 * b2.toNat + 8 * b3.toNat := by
  simp only [planeIndex, toNat_append_eq_add, BitVec.toNat_ofBool]
  omega

/-- Settles O26: the four plane bits are bits of the row's four bytes, and each has the weight of its plane. -/
theorem tileIndexBits : Obligations.TileIndexBits := by
  intro lb t r x _
  simp only [tileIndex, toNat_planeIndex, toNat_getLsbD]

/-! ### The shifting row (R75) -/

/-- After k shifts bit 0 of an accumulator is its bit k, so the k-th index written is that of the bits k. -/
theorem shiftRow_eq_map {w : Nat} (n : Nat) (a0 a1 a2 a3 : BitVec w) : shiftRow n a0 a1 a2 a3
    = (List.range n).map (fun k => planeIndex (a0.getLsbD k) (a1.getLsbD k) (a2.getLsbD k) (a3.getLsbD k)) := by
  induction n generalizing a0 a1 a2 a3 with
  | zero => rfl
  | succ n ih =>
    rw [shiftRow, ih, List.range_succ_eq_map, List.map_cons, List.map_map]
    simp [Function.comp_def, Nat.add_comm 1]

/-- Settles O27: column `7 - k` of a tile row, or `15 - k` of a cell row, is formed from the bits k. -/
theorem shiftingRowsAgree : Obligations.ShiftingRowsAgree := by
  refine ⟨fun lb t r => (shiftRow_eq_map ..).trans (List.map_congr_left fun k hk => ?_),
    fun lb c r => (shiftRow_eq_map ..).trans (List.map_congr_left fun k hk => ?_)⟩
  · rw [tileIndex, Nat.sub_sub_self (Nat.le_of_lt_succ (List.mem_range.mp hk))]
  · rw [cellIndex, Nat.sub_sub_self (Nat.le_of_lt_succ (List.mem_range.mp hk))]

/-! ### The decoded frame (R35, R76) -/

/-- Where FB holds a frame, each of its pixels stands there with the palette entry of its index (R35). -/
theorem stored_of_frame {s t : State} {idxAt : Nat → Nat → BitVec 4}
    (hframe : ∀ p < 3 * (s.frameW * s.frameH), t.fbByte p = frameByte s.pal s.frameW idxAt p)
    {x y : Nat} (hx : x < s.frameW) (hy : y < s.frameH) : Stored s t x y (palEntry s.pal (idxAt x y)) := by
  have hbyte {c : Nat} (hc : c < 3) :
      t.fbByte (3 * (y * s.frameW + x) + c) = (palEntry s.pal (idxAt x y)).channel c := by
    rw [hframe _ (lt_frame_of_pixelByte hx hy ⟨by omega, by omega⟩), frameByte_pixel s.pal s.frameW idxAt y hx hc]
  exact ⟨hbyte (c := 0) (by omega), hbyte (c := 1) (by omega), hbyte (c := 2) (by omega)⟩

/-- The effects of the BG decoder in the statements' words (R74, R76). -/
theorem bgFrame_bgInto (s : State) : BgFrame s (bgInto s) s.lbufByte := by
  refine ⟨fun tx ty r x htx hty hr hx => ?_, fun p hp => ?_⟩
  · have hcol : 8 * tx + x < s.frameW := by unfold State.frameW; omega
    have hrow : 8 * ty + r < s.frameH := by unfold State.frameH; omega
    have hstored := stored_of_frame (s := s) (t := bgInto s) (fun p hp => by rw [bgInto_fbByte, if_pos hp]) hcol hrow
    rwa [bgIndexAt_tile s tx ty hr hx] at hstored
  · exact (bgInto_fbByte s p).trans (if_neg (Nat.not_lt_of_le hp))

/-! ### The checks of the geometry (R76, R91, R92) -/

theorem badDim_iff (s : State) : badDim s = true ↔ ¬ DimOk s := by
  rw [← Bool.not_eq_false, badDim_false_iff, DimOk]

theorem badAlignBg_iff (s : State) : badAlignBg s = true ↔ ¬ AlignBg s := by
  rw [← Bool.not_eq_false, badAlignBg_false_iff, AlignBg]

/-- Settles O28: the effects are those of `bgInto`, and the first check that fails names the error. -/
theorem decbgDecodesTiles : Obligations.DecbgDecodesTiles := by
  refine fun s => ⟨fun hdim halign => ?_, fun hdim => ?_, fun hdim halign => ?_⟩
  · exact ⟨_, exec_decbg_of_geometry hdim halign, bgFrame_bgInto s, rfl⟩
  · exact exec_of_errorOf_some (e := .badDim) (if_pos ((badDim_iff s).mpr hdim))
  · have h1 : badDim s = false := (badDim_false_iff s).mpr hdim
    have h2 : badAlignBg s = true := (badAlignBg_iff s).mpr halign
    exact exec_of_errorOf_some (e := .badAlign) (by simp [errorOf, bgChecks, h1, h2])

end Sys2Proof.Machine

/-! ### DECSPR: the words and the index of a cell pixel, the tiling by cells, and the decoded frame (44_sprite.md R77
to R81; R35, R91) -/

namespace Sys2Proof.Machine

/-! ### The index of a cell pixel (R78, R80) -/

/-- The byte at the higher address is the high half of a cell's word (R78). -/
theorem toNat_cellWord (lb : Nat → Byte) (c n : Nat) :
    (cellWord lb c n).toNat = (lb (128 * c + 2 * n)).toNat + 256 * (lb (128 * c + 2 * n + 1)).toNat := by
  rw [cellWord, toNat_append_eq_add]
  omega

/-- Settles O30: the four plane bits are bits of the row's four words, and each has the weight of its plane. -/
theorem cellIndexBits : Obligations.CellIndexBits := by
  refine ⟨toNat_cellWord, fun lb c r x _ => ?_⟩
  simp only [cellIndex, toNat_planeIndex, toNat_getLsbD]

/-! ### The tiling (R79) -/

/-- The NI = H/8 cells of a strip come in pairs side by side, so that none leaves a frame of whole strips and rows. -/
theorem cellPixel_inside {w h i j r x : Nat} (hw : w % 32 = 0) (hh : h % 16 = 0) (hj : j < w / 32) (hi : i < h / 8)
    (hr : r < 16) (hx : x < 16) : cellU i j + x < w ∧ cellV i + r < h := by
  rw [cellU_eq, cellV_eq]
  omega

/-- A pixel lies in the cell with j = px div 32 and i = 2*(py div 16) + (px mod 32) div 16, and in no other (R79). -/
theorem cellPixel_eq_iff {i j r x px py : Nat} (hr : r < 16) (hx : x < 16) : px = cellU i j + x ∧ py = cellV i + r
    ↔ j = px / 32 ∧ i = 2 * (py / 16) + px % 32 / 16 ∧ r = py % 16 ∧ x = px % 16 := by
  rw [cellU_eq, cellV_eq]
  omega

/-- Settles O32: the coordinates of a pixel give back its strip, cell, row and column. -/
theorem cellsTileFrameOnce : Obligations.CellsTileFrameOnce := by
  refine fun w h hw hh => ⟨fun j i r x => cellPixel_inside hw hh, fun px py hpx hpy => ?_⟩
  refine ⟨px / 32, 2 * (py / 16) + px % 32 / 16, py % 16, px % 16, ⟨by omega, by omega, by omega, by omega, ?_⟩,
    fun j i r x _ _ hr hx hcol hrow => (cellPixel_eq_iff hr hx).mp ⟨hcol, hrow⟩⟩
  exact (cellPixel_eq_iff (by omega) (by omega)).mpr ⟨rfl, rfl, rfl, rfl⟩

/-! ### The decoded frame (R35, R81) -/

/-- The effects of the SPR decoder in the statements' words (R79, R80, R81). -/
theorem sprFrame_sprInto {s : State} (h : AlignSpr s) : SprFrame s (sprInto s) s.lbufByte := by
  refine ⟨fun j i r x hj hi hr hx => ?_, fun p hp => ?_⟩
  · obtain ⟨hcol, hrow⟩ := cellPixel_inside h.1 h.2 hj hi hr hx
    have hstored := stored_of_frame (s := s) (t := sprInto s) (fun p hp => by rw [sprInto_fbByte, if_pos hp]) hcol hrow
    rwa [sprIndexAt_cell s i j hr hx] at hstored
  · exact (sprInto_fbByte s p).trans (if_neg (Nat.not_lt_of_le hp))

/-! ### The checks of the geometry (R81, R91, R92) -/

theorem badAlignSpr_iff (s : State) : badAlignSpr s = true ↔ ¬ AlignSpr s := by
  rw [← Bool.not_eq_false, badAlignSpr_false_iff, AlignSpr]

/-- Settles O31: the effects are those of `sprInto`, and the first check that fails names the error. -/
theorem decsprDecodesCells : Obligations.DecsprDecodesCells := by
  refine fun s => ⟨fun hdim halign => ?_, fun hdim => ?_, fun hdim halign => ?_⟩
  · exact ⟨_, exec_decspr_of_geometry hdim halign, sprFrame_sprInto halign, rfl⟩
  · exact exec_of_errorOf_some (e := .badDim) (if_pos ((badDim_iff s).mpr hdim))
  · have hrange : badDim s = false := (badDim_false_iff s).mpr hdim
    have hbad : badAlignSpr s = true := (badAlignSpr_iff s).mpr halign
    exact exec_of_errorOf_some (e := .badAlign) (by simp [errorOf, sprChecks, hrange, hbad])

end Sys2Proof.Machine

/-! ### NOP, DECODE and FRAME: the checks in order, FRAME as a demultiplex and a decode, and the zero-filled tail
(45_sequence.md R82 to R84; R66, R91, R92) -/

namespace Sys2Proof.Machine

/-- Settles O18: NOP makes no check and has no effect beyond the end of every command. -/
theorem nopChangesOnlyStatus : Obligations.NopChangesOnlyStatus :=
  fun _ => exec_of_errorOf_none rfl

/-- A command that ended with ERR = 0 passed its checks and took its effects (R88, R89). -/
theorem errorOf_none_of_exec {i : Instr} {s t : State} (hexec : exec i s = .next t) (herr : t.status.err = 0) :
    errorOf i s = none ∧ t = (effectOf i s).finish 0 := by
  obtain ⟨-, -, -, hne⟩ | ⟨hnone, ht, -⟩ := exec_cases hexec
  · exact absurd herr hne
  · exact ⟨hnone, ht⟩

/-! ### DECODE is the decoder of FORMAT (R83) -/

theorem format_toNat_le_one_iff (s : State) : s.format.toNat ≤ 1 ↔ s.format = 0 ∨ s.format = 1 := by
  rw [← BitVec.toNat_inj, ← BitVec.toNat_inj]
  exact Nat.le_one_iff_eq_zero_or_eq_one

theorem errorOf_decode_of_bg {s : State} (h : s.format = 0) : errorOf .decode s = errorOf .decbg s := by
  simp [errorOf, badFormat, formatChecks, State.formatF, h]

theorem errorOf_decode_of_spr {s : State} (h : s.format = 1) : errorOf .decode s = errorOf .decspr s := by
  simp [errorOf, badFormat, formatChecks, State.formatF, h]

theorem formatInto_of_bg {s : State} (h : s.format = 0) : formatInto s = bgInto s :=
  if_pos (congrArg BitVec.toNat h)

theorem formatInto_of_spr {s : State} (h : s.format = 1) : formatInto s = sprInto s :=
  if_neg (by simp [State.formatF, h])

theorem exec_decode_of_bg {s : State} (h : s.format = 0) : exec .decode s = exec .decbg s := by
  rw [exec_eq_complete, exec_eq_complete, errorOf_decode_of_bg h]
  exact congrArg _ (formatInto_of_bg h)

theorem exec_decode_of_spr {s : State} (h : s.format = 1) : exec .decode s = exec .decspr s := by
  rw [exec_eq_complete, exec_eq_complete, errorOf_decode_of_spr h]
  exact congrArg _ (formatInto_of_spr h)

/-! ### The checks of DECODE (R83, R91, R92) -/

theorem errorOf_decode_badFormat {s : State} (h : 1 < s.format.toNat) : errorOf .decode s = some .badFormat :=
  if_pos (decide_eq_true h)

theorem errorOf_decode_badDim {s : State} (hformat : s.format.toNat ≤ 1) (hdim : ¬ DimOk s) :
    errorOf .decode s = some .badDim := by
  have hbad : badDim s = true := (badDim_iff s).mpr hdim
  obtain h | h := (format_toNat_le_one_iff s).mp hformat
  · exact (errorOf_decode_of_bg h).trans (if_pos hbad)
  · exact (errorOf_decode_of_spr h).trans (if_pos hbad)

theorem errorOf_decode_badAlign {s : State} (hdim : DimOk s)
    (halign : s.format = 0 ∧ ¬ AlignBg s ∨ s.format = 1 ∧ ¬ AlignSpr s) : errorOf .decode s = some .badAlign := by
  have hrange : badDim s = false := (badDim_false_iff s).mpr hdim
  obtain ⟨h, hbad⟩ | ⟨h, hbad⟩ := halign
  · rw [errorOf_decode_of_bg h]
    simp [errorOf, bgChecks, hrange, (badAlignBg_iff s).mpr hbad]
  · rw [errorOf_decode_of_spr h]
    simp [errorOf, sprChecks, hrange, (badAlignSpr_iff s).mpr hbad]

theorem errorOf_decbg_eq_none_iff (s : State) : errorOf .decbg s = none ↔ DimOk s ∧ AlignBg s := by
  rw [errorOf, firstError_eq_none_iff]
  simp [bgChecks, badDim_false_iff, badAlignBg_false_iff, DimOk, AlignBg]

theorem errorOf_decspr_eq_none_iff (s : State) : errorOf .decspr s = none ↔ DimOk s ∧ AlignSpr s := by
  rw [errorOf, firstError_eq_none_iff]
  simp [sprChecks, badDim_false_iff, badAlignSpr_false_iff, DimOk, AlignSpr]

/-- The checks of DECODE all pass. -/
theorem errorOf_decode_eq_none_iff (s : State) : errorOf .decode s = none
    ↔ DimOk s ∧ (s.format = 0 ∧ AlignBg s ∨ s.format = 1 ∧ AlignSpr s) := by
  obtain hformat | hformat := Nat.lt_or_ge 1 s.format.toNat
  · have hneither := mt (format_toNat_le_one_iff s).mpr (Nat.not_le_of_lt hformat)
    rw [errorOf_decode_badFormat hformat]
    exact iff_of_false (by simp) fun ⟨_, h⟩ => hneither (h.imp And.left And.left)
  · obtain h | h := (format_toNat_le_one_iff s).mp hformat
    · simp [errorOf_decode_of_bg h, errorOf_decbg_eq_none_iff, h]
    · simp [errorOf_decode_of_spr h, errorOf_decspr_eq_none_iff, h]

/-- Settles O34: FORMAT picks the checks and the effects of one decoder, or is refused before either. -/
theorem decodeByFormat : Obligations.DecodeByFormat := by
  refine fun s => ⟨fun h => exec_of_errorOf_some (errorOf_decode_badFormat h), exec_decode_of_bg, exec_decode_of_spr,
    fun h hdim halign => ?_, fun h hdim halign => ?_⟩
  · rw [exec_decode_of_bg h]
    exact (decbgDecodesTiles s).1 hdim halign
  · rw [exec_decode_of_spr h]
    exact (decsprDecodesCells s).1 hdim halign

/-! ### The checks of FRAME (R84, R92) -/

theorem firstError_append (l l' : List (Bool × CmdError)) :
    firstError (l ++ l') = (firstError l).or (firstError l') := by
  induction l with
  | nil => rfl
  | cons c l ih => obtain ⟨b, e⟩ := c; cases b <;> simp [ih]

/-- FRAME makes the checks of DECODE, then two of a demultiplex. -/
theorem errorOf_frame (s : State) : errorOf .frame s = (errorOf .decode s).or
    (firstError [(badConfig s, .badConfig), (cursorRange s s.frameN, .cursorRange)]) :=
  firstError_append ..

theorem errorOf_frame_of_decode {s : State} {e : CmdError} (h : errorOf .decode s = some e) :
    errorOf .frame s = some e := by
  rw [errorOf_frame, h, Option.some_or]

theorem errorOf_frame_badConfig {s : State} (hdecode : errorOf .decode s = none) (hconfig : ¬ ConfigOk s) :
    errorOf .frame s = some .badConfig := by
  simp [errorOf_frame, hdecode, (badConfig_iff s).mpr hconfig]

theorem errorOf_frame_cursorRange {s : State} (hdecode : errorOf .decode s = none) (hconfig : ConfigOk s)
    (hcursor : 0xFFFFFFFF < cursorAfter s s.frameN) : errorOf .frame s = some .cursorRange := by
  simp [errorOf_frame, hdecode, (badConfig_false_iff s).mpr hconfig, (cursorRange_iff s _).mpr hcursor]

/-- The checks of FRAME all pass. -/
theorem errorOf_frame_eq_none_iff (s : State) : errorOf .frame s = none
    ↔ errorOf .decode s = none ∧ ConfigOk s ∧ cursorAfter s s.frameN ≤ 0xFFFFFFFF := by
  rw [errorOf_frame, Option.or_eq_none_iff, firstError_eq_none_iff]
  simp [badConfig_false_iff, cursorRange_false_iff, State.cursor_add_demuxAdvance, ConfigOk]

/-- Settles O36: the geometry errors are those of DECODE, and the demultiplex is checked after them. -/
theorem frameChecksInOrder : Obligations.FrameChecksInOrder := by
  refine fun s => ⟨fun hformat => ?_, fun hformat hdim => ?_, fun hdim halign => ?_,
    fun hdim halign hconfig => ?_, fun hdim halign hconfig hcursor => ?_⟩
  · exact exec_of_errorOf_some (errorOf_frame_of_decode (errorOf_decode_badFormat hformat))
  · exact exec_of_errorOf_some (errorOf_frame_of_decode (errorOf_decode_badDim hformat hdim))
  · exact exec_of_errorOf_some (errorOf_frame_of_decode (errorOf_decode_badAlign hdim halign))
  · have hdecode := (errorOf_decode_eq_none_iff s).mpr ⟨hdim, halign⟩
    exact exec_of_errorOf_some (errorOf_frame_badConfig hdecode hconfig)
  · have hdecode := (errorOf_decode_eq_none_iff s).mpr ⟨hdim, halign⟩
    exact exec_of_errorOf_some (errorOf_frame_cursorRange hdecode hconfig hcursor)

/-! ### The result of a FRAME (R84) -/

/-- The decoder changes nothing that a demultiplex is judged by. -/
theorem demultiplexed_formatInto {s : State} {n : Nat} (h : cursorAfter s n ≤ 0xFFFFFFFF) :
    Demultiplexed s (formatInto (demuxInto s n)) n := by
  obtain ⟨fb, he⟩ := formatInto_frame (demuxInto s n)
  rw [he]
  exact demultiplexed_demuxInto h

/-- Settles O35: the decoders read from the demultiplexed state the geometry and PAL of before, and its LBUF. -/
theorem frameResult : Obligations.FrameResult := by
  intro s hdim hconfig hcursor halign
  have hdecode := (errorOf_decode_eq_none_iff s).mpr ⟨hdim, halign⟩
  have hnone := (errorOf_frame_eq_none_iff s).mpr ⟨hdecode, hconfig, hcursor⟩
  refine ⟨_, exec_of_errorOf_none hnone, demultiplexed_formatInto hcursor, fun h => ?_, fun h => ?_, ?_⟩
  · rw [effectOf, formatInto_of_bg (s := demuxInto s s.frameN) h]
    exact bgFrame_bgInto (demuxInto s s.frameN)
  · have hspr : AlignSpr s := by
      obtain ⟨h0, -⟩ | ⟨-, hspr⟩ := halign
      · exact absurd (h0.symm.trans h) (by decide)
      · exact hspr
    rw [effectOf, formatInto_of_spr (s := demuxInto s s.frameN) h]
    exact sprFrame_sprInto (s := demuxInto s s.frameN) hspr
  · obtain ⟨fb, he⟩ := formatInto_frame (demuxInto s s.frameN)
    rw [effectOf, he]
    rfl

/-! ### FRAME as DEMUX and then DECODE (R70, R83, R84) -/

/-- The decoders do not read DMX_LEN, and the end of a DEMUX changes nothing that they read or write. -/
theorem formatInto_demuxInto_dmxLen (s : State) (d : Word) (n : Nat) : (formatInto (demuxInto s n)).finish 0
    = { (formatInto ((demuxInto { s with dmxLen := d } n).finish 0)).finish 0 with dmxLen := s.dmxLen } := by
  by_cases h : s.formatF = 0
  · have hframe : formatInto (demuxInto s n) = bgInto (demuxInto s n) := if_pos h
    have hdecode : formatInto ((demuxInto { s with dmxLen := d } n).finish 0) = bgInto _ := if_pos h
    rw [hframe, hdecode]
    rfl
  · have hframe : formatInto (demuxInto s n) = sprInto (demuxInto s n) := if_neg h
    have hdecode : formatInto ((demuxInto { s with dmxLen := d } n).finish 0) = sprInto _ := if_neg h
    rw [hframe, hdecode]
    rfl

/-- W*H/2 of a legal geometry fits LBUF, hence DMX_LEN (R26, R33). -/
theorem toNat_ofNat_frameN {s : State} (h : DimOk s) :
    (BitVec.ofNat 32 s.frameN).toNat = s.frameN ∧ s.frameN ≤ 131072 := by
  have hfits : s.frameN ≤ 131072 := (frame_fits ((badDim_false_iff s).mpr h)).2
  exact ⟨(BitVec.toNat_ofNat ..).trans (Nat.mod_eq_of_lt (by omega)), hfits⟩

/-- Settles O37: the two commands pass the checks that FRAME passed, and their effects are FRAME's in sequence. -/
theorem frameIsDemuxThenDecode : Obligations.FrameIsDemuxThenDecode := by
  intro s t hexec herr
  obtain ⟨hnone, rfl⟩ := errorOf_none_of_exec hexec herr
  obtain ⟨hdecode, hconfig, hcursor⟩ := (errorOf_frame_eq_none_iff s).mp hnone
  obtain ⟨hlen, hfits⟩ := toNat_ofNat_frameN ((errorOf_decode_eq_none_iff s).mp hdecode).1
  have hdemux := exec_demux_of_checks (s := { s with dmxLen := BitVec.ofNat 32 s.frameN }) hconfig
    (hlen.le.trans hfits) (by rw [hlen]; exact hcursor)
  rw [hlen] at hdemux
  exact ⟨_, _, hdemux, rfl, exec_of_errorOf_none (i := .decode) hdecode, rfl, formatInto_demuxInto_dmxLen ..⟩

/-! ### The zero-filled tail (R66, R73, R77, R84) -/

/-- A tile whose 32 bytes are zero has index 0 in every pixel (R72, R73). -/
theorem tileIndex_eq_zero {lb : Nat → Byte} {t r : Nat} (hzero : ∀ k < 32, lb (32 * t + k) = 0) (hr : r < 8)
    (x : Nat) : tileIndex lb t r x = 0 := by
  have h0 := hzero (2 * r) (by omega)
  have h1 := hzero (2 * r + 1) (by omega)
  have h2 := hzero (16 + 2 * r) (by omega)
  have h3 := hzero (16 + 2 * r + 1) (by omega)
  simp only [← Nat.add_assoc] at h1 h2 h3
  simp [tileIndex, planeIndex, h0, h1, h2, h3]

/-- A cell whose 128 bytes are zero has zero words. -/
theorem cellWord_eq_zero {lb : Nat → Byte} {c n : Nat} (hzero : ∀ k < 128, lb (128 * c + k) = 0) (hn : n < 64) :
    cellWord lb c n = 0 := by
  rw [cellWord, Nat.add_assoc, hzero (2 * n) (by omega), hzero (2 * n + 1) (by omega)]
  rfl

/-- A cell whose 128 bytes are zero has index 0 in every pixel (R77, R80). -/
theorem cellIndex_eq_zero {lb : Nat → Byte} {c r : Nat} (hzero : ∀ k < 128, lb (128 * c + k) = 0) (hr : r < 16)
    (x : Nat) : cellIndex lb c r x = 0 := by
  have hword {n : Nat} (hn : n < 64) : cellWord lb c n = 0 := cellWord_eq_zero hzero hn
  simp [cellIndex, planeIndex, hword (n := r) (by omega), hword (n := 16 + r) (by omega),
    hword (n := 32 + r) (by omega), hword (n := 48 + r) (by omega)]

/-- As the addresses rise, everything from an address at or beyond SRC_LEN on is zero-filled (R66). -/
theorem Demultiplexed.lbufByte_eq_zero {s t : State} {n k k' : Nat} (h : Demultiplexed s t n)
    (hk : s.srcLen.toNat ≤ addressOf s k) (hkk : k ≤ k') (hn : k' < n) : t.lbufByte k' = 0 :=
  (h.1 k' hn).trans (if_pos (hk.trans ((addressOf_strictMono s).monotone hkk)))

/-- Number `y * w + x` of a `w` by `h` grid, stored in `b` bytes, ends within the `b * (w * h)` bytes of the grid. -/
theorem grid_bytes_le {w h x y : Nat} (hx : x < w) (hy : y < h) (b : Nat) :
    b * (y * w + x) + b ≤ b * (w * h) := by
  have hlast : y * w + x + 1 ≤ w * h := by
    calc y * w + x + 1 ≤ (y + 1) * w := by rw [Nat.succ_mul]; omega
      _ ≤ h * w := Nat.mul_le_mul_right w hy
      _ = w * h := Nat.mul_comm h w
  exact Nat.mul_le_mul_left b hlast

/-- The W*H/2 bytes of a BG frame are 32 for each tile (R73). -/
theorem frameN_of_alignBg {s : State} (h : AlignBg s) :
    s.frameN = 32 * (s.width.toNat / 8 * (s.height.toNat / 8)) := by
  obtain ⟨w, hw⟩ := Nat.dvd_of_mod_eq_zero h.1
  obtain ⟨v, hv⟩ := Nat.dvd_of_mod_eq_zero h.2
  rw [State.frameN, State.frameW, State.frameH, hw, hv, Nat.mul_div_cancel_left w (by decide),
    Nat.mul_div_cancel_left v (by decide), Nat.mul_mul_mul_comm]
  omega

/-- The W*H/2 bytes of a SPR frame are 128 for each cell (R77). -/
theorem frameN_of_alignSpr {s : State} (h : AlignSpr s) :
    s.frameN = 128 * (s.height.toNat / 8 * (s.width.toNat / 32)) := by
  obtain ⟨w, hw⟩ := Nat.dvd_of_mod_eq_zero h.1
  obtain ⟨v, hv⟩ : 8 ∣ s.height.toNat := (by decide : 8 ∣ 16).trans (Nat.dvd_of_mod_eq_zero h.2)
  rw [State.frameN, Nat.mul_comm, State.frameW, State.frameH, hw, hv, Nat.mul_div_cancel_left w (by decide),
    Nat.mul_div_cancel_left v (by decide), Nat.mul_mul_mul_comm]
  omega

/-- Settles O38: the bytes of such a tile or cell all lie in the tail, so its indices are 0. -/
theorem unreadTilesShowColourZero : Obligations.UnreadTilesShowColourZero := by
  intro s t hexec herr
  obtain ⟨hnone, -⟩ := errorOf_none_of_exec hexec herr
  obtain ⟨hdecode, hconfig, hcursor⟩ := (errorOf_frame_eq_none_iff s).mp hnone
  obtain ⟨hdim, halign⟩ := (errorOf_decode_eq_none_iff s).mp hdecode
  obtain ⟨u, hexec', hdemux, hbg, hspr, -⟩ := frameResult s hdim hconfig hcursor halign
  obtain rfl : t = u := Host.Outcome.next.inj (hexec.symm.trans hexec')
  refine ⟨fun hformat tx ty r x htx hty hr hx htail => ?_, fun hformat j i r x hj hi hr hx htail => ?_⟩
  · have hlen := frameN_of_alignBg (s := s) (by simpa [hformat] using halign)
    have hinside := grid_bytes_le htx hty 32
    have hzero : ∀ k < 32, t.lbufByte (32 * (ty * (s.width.toNat / 8) + tx) + k) = 0 := fun k hk =>
      hdemux.lbufByte_eq_zero htail (Nat.le_add_right ..) (by change _ < s.frameN; omega)
    have hstored := (hbg hformat).1 tx ty r x htx hty hr hx
    rwa [tileIndex_eq_zero hzero hr] at hstored
  · have hlen := frameN_of_alignSpr (s := s) (by simpa [hformat] using halign)
    have hinside := grid_bytes_le hi hj 128
    have hzero : ∀ k < 128, t.lbufByte (128 * (j * (s.height.toNat / 8) + i) + k) = 0 := fun k hk =>
      hdemux.lbufByte_eq_zero htail (Nat.le_add_right ..) (by change _ < s.frameN; omega)
    have hstored := (hspr hformat).1 j i r x hj hi hr hx
    rwa [cellIndex_eq_zero hzero hr] at hstored

end Sys2Proof.Machine

/-! ### The lifecycle of a command: acceptance, the turns of the host before it completes, its completion, and the
interrupt line (60_exceptions.md R87 to R93; 70_reset_and_hazards.md R103, R110) -/

namespace Sys2Proof.Machine

/-! ### Acceptance (R87) -/

/-- Settles O10: a CMD write is an acceptance while idle, and dropped while a command is pending. -/
theorem cmdWriteAcceptsWord : Obligations.CmdWriteAcceptsWord := by
  refine fun s w => ⟨fun hidle => ⟨s.accept w, busWrite_cmd_idle hidle w, rfl, rfl, Bool.and_false _⟩, fun v hl => ?_⟩
  have hb : s.busy = true := (State.busy_iff s).mpr ⟨v, hl⟩
  calc busWrite s 4 0x04 w = some (writeReg s .cmd w) := busWrite_reg s .cmd w
    _ = some s.dropWrite := by rw [writeReg_busy hb (by decide)]

/-! ### Completion (R88 to R90) -/

@[simp] theorem effectOf_ctrl (i : Instr) (s : State) : (effectOf i s).ctrl = s.ctrl := by
  obtain ⟨_, _, _, _, _, he⟩ := effectOf_frame i s
  rw [he]

@[simp] theorem effectOf_ovr (i : Instr) (s : State) : (effectOf i s).status.ovr = s.status.ovr := by
  obtain ⟨_, _, _, _, _, he⟩ := effectOf_frame i s
  rw [he]

/-- The end of a command brings IRQ to the level of IE (R93). -/
@[simp] theorem State.finish_irq (s : State) (code : BitVec 4) : (s.finish code).irq = s.ctrl.ie := Bool.and_true _

/-- The two ends of a due word: with an error and no effect, or with the effects of a command and ERR = 0. -/
theorem engineStep_ends (w : Word) (s : State) :
    (∃ e : CmdError, engineStep w s = .next (endedWith s e.code))
      ∨ ∃ i, engineStep w s = .next ((effectOf i s).finish 0) := by
  obtain ⟨i, -, hexec⟩ | ⟨-, hillegal⟩ := engineStep_cases w s
  · rw [hexec]
    cases he : errorOf i s with
    | some e => exact .inl ⟨e, exec_of_errorOf_some he⟩
    | none => exact .inr ⟨i, exec_of_errorOf_none he⟩
  · exact .inl ⟨.illegalCmd, hillegal⟩

/-- Settles O11: each of the two ends leaves these values. -/
theorem everyWordCompletes : Obligations.EveryWordCompletes := by
  intro s w hl hd
  rw [step_due hl hd]
  obtain ⟨e, hend⟩ | ⟨i, hend⟩ := engineStep_ends w s
  · exact ⟨_, hend, rfl, rfl, rfl, rfl, e.code_le, s.finish_irq e.code⟩
  · exact ⟨_, hend, rfl, rfl, rfl, by simp, by simp, by simp⟩

/-- Settles O12: an ERR other than 0 is that of the end without effects. -/
theorem failedCommandChangesOnlyStatus : Obligations.FailedCommandChangesOnlyStatus := by
  intro s t w hl hd hstep herr
  rw [step_due hl hd] at hstep
  obtain ⟨e, hend⟩ | ⟨i, hend⟩ := engineStep_ends w s <;> obtain rfl := Host.Outcome.next.inj (hend.symm.trans hstep)
  · rfl
  · exact absurd rfl herr

/-! ### The turns of the host before completion (R88, R103) -/

/-- No bus write under a command touches the latch, the countdown or the host's queue (R31). -/
theorem busWrite_busy_keeps_latch_delay_queue {s t : State} {bytes off : Nat} {v : Word} (hb : s.busy = true)
    (h : busWrite s bytes off v = some t) : t.latch = s.latch ∧ t.delay = s.delay ∧ t.hostQueue = s.hostQueue := by
  obtain rfl | ⟨-, rfl⟩ := busWrite_busy_cases hb h <;> exact ⟨rfl, rfl, rfl⟩

/-- A turn of the host under a command leaves the command as it is, or is the reset input. -/
theorem hostTurn_busy_cases {s t : State} (hb : s.busy = true) (h : hostTurn s = .next t) :
    (t.latch = s.latch ∧ t.delay = s.delay)
      ∨ ∃ rest, s.hostQueue = .reset :: rest ∧ t = State.resetInput { s with hostQueue := rest } := by
  obtain ⟨-, rfl⟩ | ⟨a, rest, hq, hcase⟩ := hostTurn_cases h
  · exact .inl ⟨rfl, rfl⟩
  · obtain ⟨_, _, _, -, rfl⟩ | ⟨_, _, _, u, -, hw, rfl⟩ | ⟨-, _, _, rfl⟩ | ⟨_, _, -, rfl⟩ | ⟨rfl, ht⟩ := hcase
    · exact .inl ⟨rfl, rfl⟩
    · obtain ⟨hl, hd, -⟩ := busWrite_busy_keeps_latch_delay_queue (s := { s with hostQueue := rest }) hb hw
      exact .inl ⟨hl, hd⟩
    · exact .inl ⟨rfl, rfl⟩
    · exact .inl ⟨rfl, rfl⟩
    · exact .inr ⟨rest, hq, ht⟩

/-- Settles O16: the turn has one host turn fewer left, and only the reset input touches the latch. -/
theorem onlyResetCancels : Obligations.OnlyResetCancels := by
  intro s t w d hl hd hstep
  rw [step_waiting hl hd] at hstep
  have hb : s.busy = true := (State.busy_iff s).mpr ⟨w, hl⟩
  obtain ⟨hlatch, hdelay⟩ | ⟨rest, hq, rfl⟩ := hostTurn_busy_cases (s := { s with delay := d }) hb hstep
  · exact .inl ⟨hlatch.trans hl, hdelay⟩
  · exact .inr ⟨rest, hq, rfl, rfl⟩

/-! ### A host that makes no refused access (R43, R110) -/

theorem busRead_of_busAccepts {bytes : Nat} {off : Offset} (h : busAccepts (.read bytes off) = true) (s : State) :
    ∃ v, busRead s bytes off.toNat = some v := by
  obtain ⟨p, hp⟩ := Option.isSome_iff_exists.mp h
  exact ⟨_, busRead_of_locate hp⟩

theorem busWrite_of_busAccepts {bytes : Nat} {off : Offset} {v : Word} (h : busAccepts (.write bytes off v) = true)
    (s : State) : ∃ t, busWrite s bytes off.toNat v = some t := by
  cases hp : locate bytes off.toNat with
  | none => simp [busAccepts, hp] at h
  | some p =>
    cases p with
    | reg r => exact ⟨writeReg s r v, by rw [busWrite, hp]⟩
    | lbuf k => exact ⟨writeLbuf s k bytes v, by rw [busWrite, hp]⟩
    | pal | fb => simp [busAccepts, hp] at h

/-- An action the bus does not refuse is done, and at most stays in the queue itself (R59). -/
theorem hostDo_of_busAccepts {a : HostAction} {s : State} (hb : s.busy = true) (h : busAccepts a = true) :
    ∃ t, hostDo a s = .next t ∧ t.hostQueue ⊆ a :: s.hostQueue := by
  have hpop : s.hostQueue ⊆ a :: s.hostQueue := List.subset_cons_self ..
  cases a with
  | read bytes off =>
    obtain ⟨v, hv⟩ := busRead_of_busAccepts h s
    exact ⟨s.answerRead v, by rw [hostDo, hv], hpop⟩
  | write bytes off v =>
    obtain ⟨u, hu⟩ := busWrite_of_busAccepts h s
    obtain ⟨-, -, hq⟩ := busWrite_busy_keeps_latch_delay_queue hb hu
    exact ⟨{ u with response := .written }, by rw [hostDo, hu], hq ▸ hpop⟩
  | wait => exact ⟨_, hostDo_wait s, by rw [if_pos hb]; exact List.Subset.refl _⟩
  | srcStore x b => exact ⟨s.srcStore x b, rfl, hpop⟩
  | reset => exact ⟨s.resetInput, rfl, hpop⟩

/-- The turn of a safe host answers a next state, and adds no action to the queue. -/
theorem hostTurn_of_hostSafe {s : State} (hb : s.busy = true) (hsafe : s.hostSafe) :
    ∃ t, hostTurn s = .next t ∧ t.hostQueue ⊆ s.hostQueue := by
  cases hq : s.hostQueue with
  | nil => exact ⟨s, hostTurn_nil hq, hq ▸ List.Subset.refl _⟩
  | cons a rest =>
    rw [hostTurn_cons hq]
    exact hostDo_of_busAccepts hb (hsafe a (hq ▸ List.mem_cons_self))

/-- A waiting command is one turn nearer after the step of a safe host without reset, which stays one. -/
theorem step_waiting_of_hostSafe {s : State} {w : Word} {d : Nat} (hl : s.latch = .pending w) (hd : s.delay = d + 1)
    (hsafe : s.hostSafe) (hreset : HostAction.reset ∉ s.hostQueue) :
    ∃ t, step s = .next t ∧ t.latch = .pending w ∧ t.delay = d ∧ t.hostSafe ∧ HostAction.reset ∉ t.hostQueue := by
  have hb : s.busy = true := (State.busy_iff s).mpr ⟨w, hl⟩
  obtain ⟨t, hturn, hq⟩ := hostTurn_of_hostSafe (s := { s with delay := d }) hb hsafe
  have hstep : step s = .next t := (step_waiting hl hd).trans hturn
  obtain ⟨hlatch, hdelay⟩ | ⟨rest, hqueue, -⟩ := onlyResetCancels s t w d hl hd hstep
  · exact ⟨t, hstep, hlatch, hdelay, fun a ha => hsafe a (hq ha), fun ha => hreset (hq ha)⟩
  · exact absurd (hqueue ▸ List.mem_cons_self) hreset

/-- Settles O17: by induction on the turns left; the last step is the completion. -/
theorem pendingCommandCompletes : Obligations.PendingCommandCompletes := by
  intro s w hl hsafe hreset
  generalize hd : s.delay = d
  induction d generalizing s with
  | zero =>
    obtain ⟨t, hstep, hlatch, -, hdone, -⟩ := everyWordCompletes s w hl hd
    exact ⟨t, runSteps_succ hstep 0, hlatch, hdone⟩
  | succ d ih =>
    obtain ⟨t, hstep, hlatch, hdelay, hsafe', hreset'⟩ := step_waiting_of_hostSafe hl hd hsafe hreset
    rw [runSteps_succ hstep]
    exact ih t hlatch hsafe' hreset' hdelay

/-! ### The interrupt line (R93) -/

theorem State.irq_of_not_done {s : State} (h : s.status.done = false) : s.irq = false := by
  rw [State.irq, h, Bool.and_false]

theorem State.irq_of_not_enabled {s : State} (h : s.ctrl.ie = false) : s.irq = false := by
  rw [State.irq, h, Bool.false_and]

theorem exec_irq {i : Instr} {s t : State} (h : exec i s = .next t) : t.irq = s.ctrl.ie := by
  obtain ⟨e, -, rfl, -⟩ | ⟨-, rfl, -⟩ := exec_cases h <;> simp

/-- While idle a write to CTRL replaces its two fields and nothing else (R18). -/
theorem busWrite_ctrl_idle {s : State} (hidle : s.latch = .idle) (v : Word) :
    busWrite s 4 0x00 v = some { s with ctrl := Ctrl.ofWord v } := by
  refine (busWrite_reg s .ctrl v).trans ?_
  simp [writeReg, (State.not_busy_iff s).mpr hidle]

/-- Settles O48: DONE is what a STATUS write and an acceptance clear, IE what a CTRL write clears. -/
theorem irqLevel : Obligations.IrqLevel := by
  refine ⟨fun s => Bool.and_eq_true_iff, fun i s t => exec_irq, fun s t v hv h => ?_, fun s t w hidle h => ?_,
    fun s t v hidle hv h => ?_⟩
  · obtain rfl := Option.some.inj ((busWrite_status s v).symm.trans h)
    exact State.irq_of_not_done (by simp [Status.writeOneToClear, hv])
  · obtain rfl := Option.some.inj ((busWrite_cmd_idle hidle w).symm.trans h)
    exact State.irq_of_not_done rfl
  · obtain rfl := Option.some.inj ((busWrite_ctrl_idle hidle v).symm.trans h)
    exact ⟨State.irq_of_not_enabled hv, rfl⟩

end Sys2Proof.Machine
